-- ==== Sys2Proof/Word.lean ====
section
/-! DEFINITION. The word types of the machine (spec/10_state.md R20, spec/30_encoding.md R80): every register and
memory value is unsigned (R10), so each is a bit vector read as a natural number. -/

namespace Sys2Proof

/-- A byte: a general register, a memory cell, a timer, an 8-bit immediate (R21, R50, R30, R82). -/
abbrev Byte := BitVec 8

/-- A 16-bit value: I, PC, a stack slot, an instruction word (R24, R25, R27, R80). -/
abbrev Word := BitVec 16

/-- The 12-bit field `nnn` (R81). -/
abbrev Addr12 := BitVec 12

/-- A register number, the field `x` or `y`: always 0 to 15 (R21, R308). Also the number of a key (R36). -/
abbrev Reg := Fin 16

/-- The field `n` of `Dxyn`: a number of sprite rows, 0 to 15 (R82). -/
abbrev Rows := Fin 16

end Sys2Proof
end

