-- ==== Sys2Proof/Config.lean ====
section
/-! DEFINITION. What is fixed for the hardware (spec/00_scope.md R7), the default of the parameter IPT (R8), and the
free values: constants with no body, so that nothing can be proved of a value of theirs. -/

namespace Sys2Proof.Config

/-- MEM_SIZE: addresses 0x000 to 0xFFF (R7, R50). -/
@[simp] abbrev memSize : Nat := 4096

/-- PROG_START: where a program is loaded and where it starts (R7, R58). -/
@[simp] abbrev progStart : Nat := 0x200

/-- STACK_DEPTH: the number of stack slots (R7, R27). -/
@[simp] abbrev stackDepth : Nat := 16

/-- FB_HEIGHT: rows of the framebuffer (R7, R32). -/
@[simp] abbrev fbHeight : Nat := 32

/-- FB_WIDTH: columns of the framebuffer (R7, R32). -/
@[simp] abbrev fbWidth : Nat := 64

/-- GLYPH_HEIGHT: the multiplier of `Fx29` (R7, R202). -/
@[simp] abbrev glyphHeight : Nat := 5

/-- The default of IPT, the instructions of one `Cycle` (R8). -/
@[simp] abbrev defaultIpt : Nat := 10

/-- FREE VALUE (log 4). The pseudo-random byte of the n-th draw (R38, R173, D13): "an 8-bit value supplied as a free
input to the step that executes `Cxkk`, under no law". -/
opaque randomByte : Nat → Byte

/-- FREE VALUE (log 3, log 30). What an element holds that a faulting transfer wrote before its fault point (R309, D3): a
byte of memory (`Fx33`, `Fx55`) or a register (`Fx65`); any value. The arguments are the number of the draw and the
address of the byte moved. -/
opaque unspecifiedByte : Nat → Nat → Byte

end Sys2Proof.Config
end

