-- ==== Sys2Proof/Machine/State.lean ====
section
/-! DEFINITION. The state of one console instance (spec/10_state.md R20), what can stop a step, and the state right
after construction (R40). -/

namespace Sys2Proof.Machine

/-- Memory as the list of the cells that differ from its contents after construction (log 8), addresses rising.
Its operations are in Machine/Memory.lean. -/
abbrev Memory := List Host.Cell

/-- The framebuffer: 32 rows of 64 cells, row-major; true is a lit pixel (R32). -/
abbrev Framebuffer := Vector (Vector Bool 64) 32

/-- The kinds of contract violation with the information each records (spec/60_exceptions.md R301). -/
inductive FaultKind where
  /-- STACK_OVERFLOW: `2nnn` with SP == 16; the address that would have been pushed (R302). -/
  | stackOverflow (pushed : Word)
  /-- STACK_UNDERFLOW: `00EE` with SP == 0 (R303). -/
  | stackUnderflow
  /-- FETCH_OUT_OF_BOUNDS: a fetch with PC >= 0xFFF; the first byte address >= 4096 (R304). -/
  | fetchOutOfBounds (addr : Nat)
  /-- READ_OUT_OF_BOUNDS: `Dxyn`, `Fx65`; the first data address >= 4096 (R305). -/
  | readOutOfBounds (addr : Nat)
  /-- WRITE_OUT_OF_BOUNDS: `Fx33`, `Fx55`; the first data address >= 4096 (R306). -/
  | writeOutOfBounds (addr : Nat)
  /-- KEY_INDEX_OUT_OF_RANGE: `Ex9E`, `ExA1` with Vx > 15; the value Vx (R307). -/
  | keyIndexOutOfRange (value : Byte)
  deriving DecidableEq, Repr

/-- A fault record: the kind, the address `a` of the faulting instruction, and its word but for a fetch fault (R301). -/
structure FaultRecord where
  kind : FaultKind
  addr : Word
  word : Option Word
  deriving DecidableEq, Repr

/-- RUNSTATE (R37). -/
inductive RunState where
  /-- Instructions execute when `Cycle` is called. -/
  | running
  /-- Blocked on the key wait; `x` is the register that will receive the key. -/
  | halted (x : Reg)
  /-- A contract violation has occurred; terminal (R310). -/
  | faulted (r : FaultRecord)
  deriving DecidableEq, Repr

/-- Why a step stops with a fault. -/
inductive Fault where
  /-- Raised by `step` alone, when it begins in `RUNSTATE = Faulted`: the machine has stopped for good (R300, R310).
  No instruction's meaning answers it: a meaning that violates its contract answers the Faulted state itself. SAFE: the
  machine stops where the spec says that nothing more executes (R112; log 2). -/
  | contractViolation (r : FaultRecord)
  deriving DecidableEq, Repr

/-- Why a step is refused. -/
inductive Refusal where
  /-- Raised by `exec` for an instruction that has no meaning yet. SAFE: the machine stops. No arm of this model
  raises it. -/
  | notModelled (mnemonic : String)
  deriving DecidableEq, Repr

/-- The state: the elements of R20 under its own names, then three fields of the model (INVENTORY.md, State). -/
structure State where
  /-- V0 to VF (R21). -/
  v : Vector Byte 16
  /-- The index register I (R24). -/
  i : Word
  /-- The program counter PC (R25). -/
  pc : Word
  /-- The stack slots STACK[0..15] (R27). -/
  stack : Vector Word 16
  /-- SP: the number of occupied slots, 0 to 16 (R28). -/
  sp : Fin 17
  /-- MEM (R50). -/
  mem : Memory
  /-- The delay timer DT (R30). -/
  dt : Byte
  /-- The sound timer ST (R31). -/
  st : Byte
  /-- FB (R32). -/
  fb : Framebuffer
  /-- DIRTY, the "should render" output (R34). -/
  dirty : Bool
  /-- SOUND_ACTIVE, the "should play sound" output (R35). -/
  soundActive : Bool
  /-- KEY[0..15], true when down (R36). -/
  key : Vector Bool 16
  /-- RUNSTATE (R37). -/
  runState : RunState
  /-- The parameter IPT of this instance (R8), carried here for want of another argument; nothing changes it (log 6). -/
  ipt : Nat
  /-- The instructions of the `Cycle` in progress already executed, 0 between two `Cycle` calls (R110; log 1). -/
  batchDone : Nat
  /-- How many free values have been taken: what the free values of Config are applied to (log 3, log 4, log 30). -/
  draws : Nat
  deriving DecidableEq, Repr

/-- What executing an instruction, or a step, answers. -/
abbrev Result := Host.Outcome State Fault Refusal

/-- The state right after construction with the default parameters (R40, R350). -/
def State.reset : State where
  v := Vector.replicate 16 0
  i := 0
  pc := 0x200
  stack := Vector.replicate 16 0
  sp := 0
  mem := []
  dt := 0
  st := 0
  fb := Vector.replicate 32 (Vector.replicate 64 false)
  dirty := false
  soundActive := false
  key := Vector.replicate 16 false
  runState := .running
  ipt := Config.defaultIpt
  batchDone := 0
  draws := 0

end Sys2Proof.Machine
end

