-- ==== Sys2Proof/Machine/Flags.lean ====
section
/-! DEFINITION. The flag computations (spec/42_alu.md R161, spec/44_display.md R233), each from the operand values
before the instruction (R160). -/

namespace Sys2Proof.Machine

/-- A flag as VF holds it: 1 or 0. -/
def flagByte (c : Bool) : Byte := if c then 1 else 0

/-- `8xy4`: the carry of the 9-bit sum (R168). -/
def carryFlag (a b : Byte) : Bool := decide (a.toNat + b.toNat > 255)

/-- `8xy5` and `8xy7`: the minuend is strictly greater; equal operands give false (R169, R171, C2; log 23). -/
def greaterFlag (minuend subtrahend : Byte) : Bool := decide (minuend.toNat > subtrahend.toNat)

/-- `8xy6`: the bit shifted out on the right (R170). -/
def lowBitFlag (a : Byte) : Bool := a.getLsbD 0

/-- `8xyE`: the bit shifted out on the left (R172). -/
def highBitFlag (a : Byte) : Bool := a.getLsbD 7

end Sys2Proof.Machine
end

