-- ==== Sys2Proof/Syntax.lean ====
section
/-! DEFINITION. The instructions: one constructor for each row of spec/opcode_table.json (spec/30_encoding.md R83 and
the fallback rows of R85). A row with operands carries exactly the fields its encoding gives it, `SHR` and `SHL` with
the `y` they ignore (R86), and a fallback row with the bits it leaves free, so that no bit of a word is lost. -/

namespace Sys2Proof

inductive Instr where
  /-- `00E0` CLS (R235). -/
  | cls
  /-- `00EE` RET (R132). -/
  | ret
  /-- `1nnn` JP addr (R133). -/
  | jp (nnn : Addr12)
  /-- `2nnn` CALL addr (R134). -/
  | call (nnn : Addr12)
  /-- `3xkk` SE Vx, byte (R135). -/
  | seImm (x : Reg) (kk : Byte)
  /-- `4xkk` SNE Vx, byte (R136). -/
  | sneImm (x : Reg) (kk : Byte)
  /-- `5xy0` SE Vx, Vy (R137). -/
  | seReg (x y : Reg)
  /-- `6xkk` LD Vx, byte (R162). -/
  | ldImm (x : Reg) (kk : Byte)
  /-- `7xkk` ADD Vx, byte (R163). -/
  | addImm (x : Reg) (kk : Byte)
  /-- `8xy0` LD Vx, Vy (R164). -/
  | ldReg (x y : Reg)
  /-- `8xy1` OR Vx, Vy (R165). -/
  | orReg (x y : Reg)
  /-- `8xy2` AND Vx, Vy (R166). -/
  | andReg (x y : Reg)
  /-- `8xy3` XOR Vx, Vy (R167). -/
  | xorReg (x y : Reg)
  /-- `8xy4` ADD Vx, Vy (R168). -/
  | addReg (x y : Reg)
  /-- `8xy5` SUB Vx, Vy (R169). -/
  | subReg (x y : Reg)
  /-- `8xy6` SHR Vx (R170); y is ignored. -/
  | shr (x y : Reg)
  /-- `8xy7` SUBN Vx, Vy (R171). -/
  | subnReg (x y : Reg)
  /-- `8xyE` SHL Vx (R172); y is ignored. -/
  | shl (x y : Reg)
  /-- `9xy0` SNE Vx, Vy (R138). -/
  | sneReg (x y : Reg)
  /-- `Annn` LD I, addr (R200). -/
  | ldI (nnn : Addr12)
  /-- `Bnnn` JP V0, addr (R139). -/
  | jpV0 (nnn : Addr12)
  /-- `Cxkk` RND Vx, byte (R173). -/
  | rnd (x : Reg) (kk : Byte)
  /-- `Dxyn` DRW Vx, Vy, nibble (R236). -/
  | drw (x y : Reg) (n : Rows)
  /-- `Ex9E` SKP Vx (R260). -/
  | skp (x : Reg)
  /-- `ExA1` SKNP Vx (R261). -/
  | sknp (x : Reg)
  /-- `Fx07` LD Vx, DT (R262). -/
  | ldVxDt (x : Reg)
  /-- `Fx0A` LD Vx, K (R263). -/
  | ldVxK (x : Reg)
  /-- `Fx15` LD DT, Vx (R264). -/
  | ldDtVx (x : Reg)
  /-- `Fx18` LD ST, Vx (R265). -/
  | ldStVx (x : Reg)
  /-- `Fx1E` ADD I, Vx (R201). -/
  | addI (x : Reg)
  /-- `Fx29` LD F, Vx (R202). -/
  | ldF (x : Reg)
  /-- `Fx33` LD B, Vx (R203). -/
  | ldB (x : Reg)
  /-- `Fx55` LD [I], Vx (R204). -/
  | storeRegs (x : Reg)
  /-- `Fx65` LD Vx, [I] (R205). -/
  | loadRegs (x : Reg)
  /-- `0nnn` SYS addr, a word of family 0 that is neither `00E0` nor `00EE` (R291). -/
  | sys (nnn : Addr12)
  /-- An unrecognized word of family 5 (R290); `low` is its bits 11:0. -/
  | nop5 (low : Addr12)
  /-- An unrecognized word of family 8 (R290). -/
  | nop8 (low : Addr12)
  /-- An unrecognized word of family 9 (R290). -/
  | nop9 (low : Addr12)
  /-- An unrecognized word of family E (R290). -/
  | nopE (low : Addr12)
  /-- An unrecognized word of family F (R290). -/
  | nopF (low : Addr12)
  deriving DecidableEq, Repr

end Sys2Proof
end

