-- ==== Sys2Proof/WellFormed.lean ====
section
/-! DEFINITION. Which instructions are well formed. The types of the fields already bound every operand (R81: "every
16-bit value decodes to well-defined fields"); what is left to check is that a fallback row stands only for a word
that no exact row of its family takes (spec/30_encoding.md R84, R85). -/

namespace Sys2Proof

/-- Bits 3:0 of the low twelve bits of a word: the field `n` (R81). -/
def lowNibble (low : Addr12) : BitVec 4 := low.extractLsb' 0 4

/-- Bits 7:0 of the low twelve bits of a word: the field `kk` (R81). -/
def lowByte (low : Addr12) : Byte := low.extractLsb' 0 8

/-- The sub-opcodes `n` of family 8 that R85 lists as unrecognized. -/
def unlisted8 : List (BitVec 4) := [0x8, 0x9, 0xA, 0xB, 0xC, 0xD, 0xF]

/-- The sub-opcodes `kk` of the family E rows (R83). -/
def listedE : List Byte := [0x9E, 0xA1]

/-- The sub-opcodes `kk` of the family F rows (R83, R85). -/
def listedF : List Byte := [0x07, 0x0A, 0x15, 0x18, 0x1E, 0x29, 0x33, 0x55, 0x65]

/-- The checks, one for each fallback row (R85). -/
def Instr.wellFormed : Instr → Bool
  | .sys nnn => nnn != 0x0E0 && nnn != 0x0EE
  | .nop5 low => lowNibble low != 0
  | .nop8 low => unlisted8.contains (lowNibble low)
  | .nop9 low => lowNibble low != 0
  | .nopE low => !listedE.contains (lowByte low)
  | .nopF low => !listedF.contains (lowByte low)
  | .cls | .ret | .jp _ | .call _ | .seImm _ _ | .sneImm _ _ | .seReg _ _ | .ldImm _ _ | .addImm _ _ => true
  | .ldReg _ _ | .orReg _ _ | .andReg _ _ | .xorReg _ _ | .addReg _ _ | .subReg _ _ | .shr _ _ => true
  | .subnReg _ _ | .shl _ _ | .sneReg _ _ | .ldI _ | .jpV0 _ | .rnd _ _ | .drw _ _ _ | .skp _ | .sknp _ => true
  | .ldVxDt _ | .ldVxK _ | .ldDtVx _ | .ldStVx _ | .addI _ | .ldF _ | .ldB _ | .storeRegs _ | .loadRegs _ => true

end Sys2Proof
end

