-- ==== Sys2Proof/Decode.lean ====
section
/-! DEFINITION. The decoder (spec/30_encoding.md R81 to R85, with the full-pattern match of R83, D14) and, after it,
the encoder, both written from the patterns of R83. -/

namespace Sys2Proof

/-! ## Fields of a word (R81) -/

/-- Bits 15:12, the instruction family. -/
def family (w : Word) : Fin 16 := (w.extractLsb' 12 4).toFin

/-- Bits 11:8. -/
def fieldX (w : Word) : Reg := (w.extractLsb' 8 4).toFin

/-- Bits 7:4. -/
def fieldY (w : Word) : Reg := (w.extractLsb' 4 4).toFin

/-- Bits 3:0. -/
def fieldN (w : Word) : Fin 16 := (w.extractLsb' 0 4).toFin

/-- Bits 7:0. -/
def fieldKk (w : Word) : Byte := w.extractLsb' 0 8

/-- Bits 11:0. -/
def fieldNnn (w : Word) : Addr12 := w.extractLsb' 0 12

/-! ## The decoder -/

/-- Family 0: the two exact words, else SYS (R83, R291). -/
def decodeFamily0 (w : Word) : Instr :=
  if fieldNnn w = 0x0E0 then .cls
  else if fieldNnn w = 0x0EE then .ret
  else .sys (fieldNnn w)

/-- Family 8, selected by `n` (R83); the values left are those R85 lists as unrecognized. -/
def decodeFamily8 (w : Word) : Instr :=
  let x := fieldX w
  let y := fieldY w
  match fieldN w with
  | 0x0 => .ldReg x y
  | 0x1 => .orReg x y
  | 0x2 => .andReg x y
  | 0x3 => .xorReg x y
  | 0x4 => .addReg x y
  | 0x5 => .subReg x y
  | 0x6 => .shr x y
  | 0x7 => .subnReg x y
  | 0xE => .shl x y
  | _ => .nop8 (fieldNnn w)

/-- Family E, selected by `kk` (R83). -/
def decodeFamilyE (w : Word) : Instr :=
  if fieldKk w = 0x9E then .skp (fieldX w)
  else if fieldKk w = 0xA1 then .sknp (fieldX w)
  else .nopE (fieldNnn w)

/-- Family F, selected by `kk` (R83). -/
def decodeFamilyF (w : Word) : Instr :=
  let x := fieldX w
  if fieldKk w = 0x07 then .ldVxDt x
  else if fieldKk w = 0x0A then .ldVxK x
  else if fieldKk w = 0x15 then .ldDtVx x
  else if fieldKk w = 0x18 then .ldStVx x
  else if fieldKk w = 0x1E then .addI x
  else if fieldKk w = 0x29 then .ldF x
  else if fieldKk w = 0x33 then .ldB x
  else if fieldKk w = 0x55 then .storeRegs x
  else if fieldKk w = 0x65 then .loadRegs x
  else .nopF (fieldNnn w)

/-- The instruction of a word. Total: "every 16-bit value decodes" (R81, R84). The family left for the last arm is
0xF. -/
def decodeWord (w : Word) : Instr :=
  match family w with
  | 0x0 => decodeFamily0 w
  | 0x1 => .jp (fieldNnn w)
  | 0x2 => .call (fieldNnn w)
  | 0x3 => .seImm (fieldX w) (fieldKk w)
  | 0x4 => .sneImm (fieldX w) (fieldKk w)
  | 0x5 => if fieldN w = 0 then .seReg (fieldX w) (fieldY w) else .nop5 (fieldNnn w)
  | 0x6 => .ldImm (fieldX w) (fieldKk w)
  | 0x7 => .addImm (fieldX w) (fieldKk w)
  | 0x8 => decodeFamily8 w
  | 0x9 => if fieldN w = 0 then .sneReg (fieldX w) (fieldY w) else .nop9 (fieldNnn w)
  | 0xA => .ldI (fieldNnn w)
  | 0xB => .jpV0 (fieldNnn w)
  | 0xC => .rnd (fieldX w) (fieldKk w)
  | 0xD => .drw (fieldX w) (fieldY w) (fieldN w)
  | 0xE => decodeFamilyE w
  | _ => decodeFamilyF w

/-- The word of two bytes: the first, at the lower address, is the high byte (R54, R55). -/
def wordOfBytes (hi lo : Byte) : Word := hi ++ lo

/-- The two bytes of a word as memory holds them (R55). -/
def bytesOfWord (w : Word) : List Byte := [w.extractLsb' 8 8, w.extractLsb' 0 8]

/-- Why bytes do not decode. No word is refused (R84): only bytes that are missing. -/
inductive DecodeError where
  /-- Fewer than two bytes: every instruction is exactly two (R87). -/
  | truncated
  deriving DecidableEq, Repr

/-- Decode the instruction at the head of a list of bytes, with the bytes that follow it. -/
def decodeBytes : List Byte → Except DecodeError (Instr × List Byte)
  | hi :: lo :: rest => .ok (decodeWord (wordOfBytes hi lo), rest)
  | [_] => .error .truncated
  | [] => .error .truncated

/-- The instruction the decoder reads from the table word `w` of `nbits` bits (spec/opcode_table.json numbers bit 0 as
the least significant bit of the one 16-bit word); the bits above `nbits` are 0. -/
def decodeTableWord (nbits w : Nat) : Option Instr :=
  match decodeBytes (bytesOfWord (BitVec.ofNat 16 (w % 2 ^ nbits))) with
  | .ok (i, _) => some i
  | .error _ => none

/-! ## The encoder -/

/-- A register number or a row count as the four bits of its field. -/
def nib (r : Fin 16) : BitVec 4 := BitVec.ofFin r

/-- The layout family, x, y, n (R80). -/
def packXyn (f : BitVec 4) (x y : Reg) (n : BitVec 4) : Word := f ++ nib x ++ nib y ++ n

/-- The layout family, x, kk (R80). -/
def packXkk (f : BitVec 4) (x : Reg) (kk : Byte) : Word := f ++ nib x ++ kk

/-- The layout family, nnn (R80). -/
def packNnn (f : BitVec 4) (nnn : Addr12) : Word := f ++ nnn

/-- The word of an instruction (R83). -/
def encode : Instr → Word
  | .cls => 0x00E0
  | .ret => 0x00EE
  | .jp nnn => packNnn 0x1 nnn
  | .call nnn => packNnn 0x2 nnn
  | .seImm x kk => packXkk 0x3 x kk
  | .sneImm x kk => packXkk 0x4 x kk
  | .seReg x y => packXyn 0x5 x y 0x0
  | .ldImm x kk => packXkk 0x6 x kk
  | .addImm x kk => packXkk 0x7 x kk
  | .ldReg x y => packXyn 0x8 x y 0x0
  | .orReg x y => packXyn 0x8 x y 0x1
  | .andReg x y => packXyn 0x8 x y 0x2
  | .xorReg x y => packXyn 0x8 x y 0x3
  | .addReg x y => packXyn 0x8 x y 0x4
  | .subReg x y => packXyn 0x8 x y 0x5
  | .shr x y => packXyn 0x8 x y 0x6
  | .subnReg x y => packXyn 0x8 x y 0x7
  | .shl x y => packXyn 0x8 x y 0xE
  | .sneReg x y => packXyn 0x9 x y 0x0
  | .ldI nnn => packNnn 0xA nnn
  | .jpV0 nnn => packNnn 0xB nnn
  | .rnd x kk => packXkk 0xC x kk
  | .drw x y n => packXyn 0xD x y (nib n)
  | .skp x => packXkk 0xE x 0x9E
  | .sknp x => packXkk 0xE x 0xA1
  | .ldVxDt x => packXkk 0xF x 0x07
  | .ldVxK x => packXkk 0xF x 0x0A
  | .ldDtVx x => packXkk 0xF x 0x15
  | .ldStVx x => packXkk 0xF x 0x18
  | .addI x => packXkk 0xF x 0x1E
  | .ldF x => packXkk 0xF x 0x29
  | .ldB x => packXkk 0xF x 0x33
  | .storeRegs x => packXkk 0xF x 0x55
  | .loadRegs x => packXkk 0xF x 0x65
  | .sys nnn => packNnn 0x0 nnn
  | .nop5 low => packNnn 0x5 low
  | .nop8 low => packNnn 0x8 low
  | .nop9 low => packNnn 0x9 low
  | .nopE low => packNnn 0xE low
  | .nopF low => packNnn 0xF low

/-- The two bytes of an instruction as a program holds them (R80, R88). -/
def encodeBytes (i : Instr) : List Byte := bytesOfWord (encode i)

/-! ## The opcode map as data (R83) -/

/-- One row of the opcode map: a word selects it when `(w AND mask) == match` (R83). -/
structure OpcodeRow where
  mnemonic : String
  pattern : Word
  mask : Word
  deriving DecidableEq, Repr

/-- The exact rows of families 0 to 7, in the order of R83. -/
def exactRowsLow : List OpcodeRow :=
  [⟨"CLS", 0x00E0, 0xFFFF⟩, ⟨"RET", 0x00EE, 0xFFFF⟩, ⟨"JP_nnn", 0x1000, 0xF000⟩, ⟨"CALL_nnn", 0x2000, 0xF000⟩,
   ⟨"SE_Vx__kk", 0x3000, 0xF000⟩, ⟨"SNE_Vx__kk", 0x4000, 0xF000⟩, ⟨"SE_Vx__Vy", 0x5000, 0xF00F⟩,
   ⟨"LD_Vx__kk", 0x6000, 0xF000⟩, ⟨"ADD_Vx__kk", 0x7000, 0xF000⟩]

/-- The exact rows of families 8 to D, in the order of R83. -/
def exactRowsMid : List OpcodeRow :=
  [⟨"LD_Vx__Vy", 0x8000, 0xF00F⟩, ⟨"OR_Vx__Vy", 0x8001, 0xF00F⟩, ⟨"AND_Vx__Vy", 0x8002, 0xF00F⟩,
   ⟨"XOR_Vx__Vy", 0x8003, 0xF00F⟩, ⟨"ADD_Vx__Vy", 0x8004, 0xF00F⟩, ⟨"SUB_Vx__Vy", 0x8005, 0xF00F⟩,
   ⟨"SHR_Vx", 0x8006, 0xF00F⟩, ⟨"SUBN_Vx__Vy", 0x8007, 0xF00F⟩, ⟨"SHL_Vx", 0x800E, 0xF00F⟩,
   ⟨"SNE_Vx__Vy", 0x9000, 0xF00F⟩, ⟨"LD_I__nnn", 0xA000, 0xF000⟩, ⟨"JP_V0__nnn", 0xB000, 0xF000⟩,
   ⟨"RND_Vx__kk", 0xC000, 0xF000⟩, ⟨"DRW_Vx__Vy__n", 0xD000, 0xF000⟩]

/-- The exact rows of families E and F, in the order of R83. -/
def exactRowsHigh : List OpcodeRow :=
  [⟨"SKP_Vx", 0xE09E, 0xF0FF⟩, ⟨"SKNP_Vx", 0xE0A1, 0xF0FF⟩, ⟨"LD_Vx__DT", 0xF007, 0xF0FF⟩,
   ⟨"LD_Vx__K", 0xF00A, 0xF0FF⟩, ⟨"LD_DT__Vx", 0xF015, 0xF0FF⟩, ⟨"LD_ST__Vx", 0xF018, 0xF0FF⟩,
   ⟨"ADD_I__Vx", 0xF01E, 0xF0FF⟩, ⟨"LD_F__Vx", 0xF029, 0xF0FF⟩, ⟨"LD_B__Vx", 0xF033, 0xF0FF⟩,
   ⟨"LD__I___Vx", 0xF055, 0xF0FF⟩, ⟨"LD_Vx___I", 0xF065, 0xF0FF⟩]

/-- The 34 exact rows of R83. -/
def exactRows : List OpcodeRow := exactRowsLow ++ (exactRowsMid ++ exactRowsHigh)

/-- A word selects a row (R83). -/
def OpcodeRow.selects (r : OpcodeRow) (w : Word) : Bool := w &&& r.mask == r.pattern

/-- The mnemonic of an instruction as spec/opcode_table.json spells it; the fallback rows are SYS and NOP (R290, R291). -/
def Instr.mnemonic : Instr → String
  | .cls => "CLS" | .ret => "RET" | .jp _ => "JP_nnn" | .call _ => "CALL_nnn"
  | .seImm _ _ => "SE_Vx__kk" | .sneImm _ _ => "SNE_Vx__kk" | .seReg _ _ => "SE_Vx__Vy"
  | .ldImm _ _ => "LD_Vx__kk" | .addImm _ _ => "ADD_Vx__kk"
  | .ldReg _ _ => "LD_Vx__Vy" | .orReg _ _ => "OR_Vx__Vy" | .andReg _ _ => "AND_Vx__Vy"
  | .xorReg _ _ => "XOR_Vx__Vy" | .addReg _ _ => "ADD_Vx__Vy" | .subReg _ _ => "SUB_Vx__Vy"
  | .shr _ _ => "SHR_Vx" | .subnReg _ _ => "SUBN_Vx__Vy" | .shl _ _ => "SHL_Vx"
  | .sneReg _ _ => "SNE_Vx__Vy" | .ldI _ => "LD_I__nnn" | .jpV0 _ => "JP_V0__nnn"
  | .rnd _ _ => "RND_Vx__kk" | .drw _ _ _ => "DRW_Vx__Vy__n"
  | .skp _ => "SKP_Vx" | .sknp _ => "SKNP_Vx" | .ldVxDt _ => "LD_Vx__DT" | .ldVxK _ => "LD_Vx__K"
  | .ldDtVx _ => "LD_DT__Vx" | .ldStVx _ => "LD_ST__Vx" | .addI _ => "ADD_I__Vx" | .ldF _ => "LD_F__Vx"
  | .ldB _ => "LD_B__Vx" | .storeRegs _ => "LD__I___Vx" | .loadRegs _ => "LD_Vx___I"
  | .sys _ => "SYS_nnn" | .nop5 _ => "NOP" | .nop8 _ => "NOP" | .nop9 _ => "NOP" | .nopE _ => "NOP" | .nopF _ => "NOP"

/-- The first hex digit of an instruction's pattern (R83). -/
def Instr.family : Instr → Fin 16
  | .cls | .ret | .sys _ => 0x0
  | .jp _ => 0x1
  | .call _ => 0x2
  | .seImm _ _ => 0x3
  | .sneImm _ _ => 0x4
  | .seReg _ _ | .nop5 _ => 0x5
  | .ldImm _ _ => 0x6
  | .addImm _ _ => 0x7
  | .ldReg _ _ | .orReg _ _ | .andReg _ _ | .xorReg _ _ | .addReg _ _ => 0x8
  | .subReg _ _ | .shr _ _ | .subnReg _ _ | .shl _ _ | .nop8 _ => 0x8
  | .sneReg _ _ | .nop9 _ => 0x9
  | .ldI _ => 0xA
  | .jpV0 _ => 0xB
  | .rnd _ _ => 0xC
  | .drw _ _ _ => 0xD
  | .skp _ | .sknp _ | .nopE _ => 0xE
  | .ldVxDt _ | .ldVxK _ | .ldDtVx _ | .ldStVx _ | .addI _ | .ldF _ | .ldB _ | .storeRegs _ | .loadRegs _ => 0xF
  | .nopF _ => 0xF

end Sys2Proof
end

