-- ==== Sys2Proof/Machine/Memory.lean ====
section
/-! DEFINITION. Memory (spec/20_memory.md): what it holds after construction, reading and writing one byte, and the
bulk load. The bound of 4096 is checked by the callers (Machine/Ops.lean, `loadBulk` below), as in R51, R52 and R70. -/

namespace Sys2Proof.Machine

/-- Glyphs 0 to 7 of the default FONT (spec/70_reset_and_hazards.md R352; PRESUMED: the bytes are the spec's general
knowledge, G1, log 5). -/
def fontLow : List Byte :=
  [0xF0, 0x90, 0x90, 0x90, 0xF0,  0x20, 0x60, 0x20, 0x20, 0x70,
   0xF0, 0x10, 0xF0, 0x80, 0xF0,  0xF0, 0x10, 0xF0, 0x10, 0xF0,
   0x90, 0x90, 0xF0, 0x10, 0x10,  0xF0, 0x80, 0xF0, 0x10, 0xF0,
   0xF0, 0x80, 0xF0, 0x90, 0xF0,  0xF0, 0x10, 0x20, 0x40, 0x40]

/-- Glyphs 8 to F of the default FONT (R352; PRESUMED, log 5). -/
def fontHigh : List Byte :=
  [0xF0, 0x90, 0xF0, 0x90, 0xF0,  0xF0, 0x90, 0xF0, 0x10, 0xF0,
   0xF0, 0x90, 0xF0, 0x90, 0x90,  0xE0, 0x90, 0xE0, 0x90, 0xE0,
   0xF0, 0x80, 0x80, 0x80, 0xF0,  0xE0, 0x90, 0x90, 0x90, 0xE0,
   0xF0, 0x80, 0xF0, 0x80, 0xF0,  0xF0, 0x80, 0xF0, 0x80, 0x80]

/-- The default FONT: 16 glyphs of 5 bytes, glyph d at 5 * d (R352). -/
def defaultFont : List Byte := fontLow ++ fontHigh

/-- What an address reads as that memory does not list: its contents after construction, the font at 0x000 and zero
everywhere else (R40, R351, R352; log 8). -/
def Memory.unlisted (a : Nat) : Byte := (defaultFont[a]?).getD 0

/-- The byte at an address (R50). -/
def Memory.read : Memory → Nat → Byte
  | [], a => Memory.unlisted a
  | (b, v) :: rest, a => if a = b then v else Memory.read rest a

/-- Memory without the cell of an address. -/
def Memory.erase (m : Memory) (a : Nat) : Memory := m.filter fun c => c.1 != a

/-- A cell at its place in the rising order of addresses. -/
def Memory.insert (c : Host.Cell) : Memory → Memory
  | [] => [c]
  | d :: rest => if c.1 < d.1 then c :: d :: rest else d :: Memory.insert c rest

/-- Store a byte, keeping the canonical form: the old cell goes, and a new one is listed unless it holds what the address
reads as unlisted. -/
def Memory.write (m : Memory) (a : Nat) (v : Byte) : Memory :=
  if v = Memory.unlisted a then m.erase a else Memory.insert (a, v) (m.erase a)

/-- Store bytes at rising addresses (R63, R70). -/
def Memory.writeAll (m : Memory) (a : Nat) : List Byte → Memory
  | [] => m
  | v :: vs => Memory.writeAll (m.write a v) (a + 1) vs

/-- The canonical form: addresses strictly rising, each below 4096, no cell at its unlisted value. -/
abbrev Memory.wf (m : Memory) : Prop :=
  m.Pairwise (fun c d => c.1 < d.1) ∧ ∀ c ∈ m, c.1 < Config.memSize ∧ c.2 ≠ Memory.unlisted c.1

/-- `LoadBulk(addr, bytes)`: none when it would pass the end of memory, "no state change" (R70). -/
def Memory.loadBulk (m : Memory) (addr : Nat) (bytes : List Byte) : Option Memory :=
  if addr + bytes.length > Config.memSize then none else some (m.writeAll addr bytes)

/-- `MemRead` of `n` bytes at rising addresses from `a`; the first address >= 4096 is the error (R51, R53, R63). -/
def Memory.readRange (m : Memory) (a : Nat) : Nat → Except Nat (List Byte)
  | 0 => .ok []
  | n + 1 =>
    if a ≥ Config.memSize then .error a
    else match Memory.readRange m (a + 1) n with
      | .ok vs => .ok (m.read a :: vs)
      | .error bad => .error bad

/-- `MemWrite` of bytes at rising addresses from `a`; the first address >= 4096 is the error (R52, R53, R63). -/
def Memory.writeRange (m : Memory) (a : Nat) : List Byte → Except Nat Memory
  | [] => .ok m
  | v :: vs => if a ≥ Config.memSize then .error a else Memory.writeRange (m.write a v) (a + 1) vs

/-- Give `n` bytes from `a` on values nothing is known of, those of draw `d` (R309, D3). -/
def Memory.forget (m : Memory) (d a : Nat) : Nat → Memory
  | 0 => m
  | n + 1 => Memory.forget (m.write a (Config.unspecifiedByte d a)) d (a + 1) n

end Sys2Proof.Machine
end

