-- ==== Sys2Proof/Machine/Operands.lean ====
section
/-! DEFINITION. The operand forms (spec/30_encoding.md R82, spec/43_index_memory.md R206): registers, immediates,
12-bit addresses, and the one data addressing mode, I with an implicit offset. -/

namespace Sys2Proof.Machine

/-- V[x] as an operand (R21, R82). -/
def State.reg (s : State) (x : Reg) : Byte := s.v[x]

/-- The register VF, which is also the flag (R22). -/
def vf : Reg := 15

/-- KEY[k] as an operand (R36). -/
def State.keyDown (s : State) (k : Reg) : Bool := s.key[k]

/-- The cell FB[r][c] (R32). -/
def Framebuffer.cell (fb : Framebuffer) (r : Fin 32) (c : Fin 64) : Bool := fb[r][c]

/-- `nnn` as a 16-bit address: zero-extended, neither scaled nor masked (R82, R131). -/
def addrOperand (nnn : Addr12) : Word := nnn.setWidth 16

/-- The target `nnn + V[0]`: a natural sum of at most 0x10FE, not reduced modulo 4096 (R139, D7). -/
def jumpV0Target (s : State) (nnn : Addr12) : Word := BitVec.ofNat 16 (nnn.toNat + (s.reg 0).toNat)

/-- The effective address of byte `j` of a transfer: the natural number I + j, never wrapped (R206, R53, D7). -/
def State.effAddr (s : State) (j : Nat) : Nat := s.i.toNat + j

/-- The number of bytes that `Fx55` and `Fx65` move: V0 to Vx inclusive (R204, R205). -/
def rangeLength (x : Reg) : Nat := x.val + 1

/-- The values V[0] to V[x] in rising order (R204). -/
def State.regRange (s : State) (x : Reg) : List Byte := s.v.toList.take (rangeLength x)

/-- The three decimal digits of a byte: hundreds, tens, units (R203). -/
def bcdDigits (v : Byte) : List Byte :=
  [BitVec.ofNat 8 (v.toNat / 100), BitVec.ofNat 8 (v.toNat / 10 % 10), BitVec.ofNat 8 (v.toNat % 10)]

/-- The address of the glyph that `Fx29` selects: Vx * 5, Vx not masked (R202). -/
def glyphAddr (v : Byte) : Word := BitVec.ofNat 16 (v.toNat * Config.glyphHeight)

end Sys2Proof.Machine
end

