-- ==== Sys2Proof/Machine/Ops.lean ====
section
/-! DEFINITION. The operations that instructions share: one write for each element of the state, the skip, the stack
(spec/20_memory.md R60, R61), the transfers to and from memory (R51, R52, R63), taking a fault
(spec/60_exceptions.md R300, R309) and the timer tick (R320). -/

namespace Sys2Proof.Machine

/-! ## One write for each element -/

/-- V[x] <- b (R21). -/
def State.setReg (s : State) (x : Reg) (b : Byte) : State := { s with v := s.v.set x b }

/-- I <- w (R24). -/
def State.setI (s : State) (w : Word) : State := { s with i := w }

/-- PC <- w (R25). -/
def State.setPc (s : State) (w : Word) : State := { s with pc := w }

/-- The memory after a store (R52). -/
def State.setMem (s : State) (m : Memory) : State := { s with mem := m }

/-- DT <- b (R30). -/
def State.setDt (s : State) (b : Byte) : State := { s with dt := b }

/-- ST <- b (R31). -/
def State.setSt (s : State) (b : Byte) : State := { s with st := b }

/-- The framebuffer after a change, which marks it dirty (R34, C6). -/
def State.setFb (s : State) (fb : Framebuffer) : State := { s with fb := fb, dirty := true }

/-- DIRTY <- false and SOUND_ACTIVE <- false (R113). -/
def State.clearOutputFlags (s : State) : State := { s with dirty := false, soundActive := false }

/-- KEY[k] <- b (R36). -/
def State.setKey (s : State) (k : Reg) (b : Bool) : State := { s with key := s.key.set k b }

/-- RUNSTATE <- r (R37). -/
def State.setRunState (s : State) (r : RunState) : State := { s with runState := r }

/-- The position in the `Cycle` in progress (log 1). -/
def State.setBatchDone (s : State) (n : Nat) : State := { s with batchDone := n }

/-- One more free value is taken (R173; log 4). -/
def State.nextDraw (s : State) : State := { s with draws := s.draws + 1 }

/-! ## Results -/

/-- V[x] <- result, then VF <- flag: VF is written last (R23, R160). -/
def State.setRegFlag (s : State) (x : Reg) (result : Byte) (flag : Bool) : State :=
  (s.setReg x result).setReg vf (flagByte flag)

/-- V[j] <- b for the bytes of a list, j rising from the given number (R205). -/
def loadFrom (v : Vector Byte 16) (j : Nat) : List Byte → Vector Byte 16
  | [] => v
  | b :: bs => loadFrom (v.setIfInBounds j b) (j + 1) bs

/-- V[0], V[1], ... <- the bytes of a list (R205). -/
def State.loadRegs (s : State) (bs : List Byte) : State := { s with v := loadFrom s.v 0 bs }

/-- A skip: PC <- trunc16(PC + 2) when the condition holds, nothing otherwise (R130). -/
def State.skipIf (s : State) (c : Bool) : State := if c then s.setPc (s.pc + 2) else s

/-! ## The stack (R60, R61) -/

/-- `Push(v)`: none when SP == 16; else the slot is written, then SP rises (R60). -/
def State.push (s : State) (w : Word) : Option State :=
  if h : s.sp.val < 16 then some { s with stack := s.stack.set s.sp.val w, sp := ⟨s.sp.val + 1, by omega⟩ } else none

/-- `Pop()`: none when SP == 0; else SP falls, then the slot is read (R61). -/
def State.pop (s : State) : Option (Word × State) :=
  if _h : s.sp.val = 0 then none
  else some (s.stack[s.sp.val - 1], { s with sp := ⟨s.sp.val - 1, by omega⟩ })

/-! ## Taking a fault

`raise K(info)` (R13, R300): the one operation through which every contract violation goes. It records the kind, the
address of the faulting instruction and its word (R301), and changes nothing else: PC stays as it is (R309). There is no
return from a fault (R314): nothing in this model takes RUNSTATE out of Faulted but a new construction (R310). -/

/-- RUNSTATE <- Faulted(K, info). -/
def State.takeFault (s : State) (k : FaultKind) (a : Word) (w : Option Word) : State :=
  s.setRunState (.faulted ⟨k, a, w⟩)

/-- A fault of the instruction `i`: PC is already advanced, so its address is PC - 2 (R102, R309; log 25). -/
def State.instrFault (s : State) (k : FaultKind) (i : Instr) : State :=
  s.takeFault k (s.pc - 2) (some (encode i))

/-! ## Transfers between registers and memory -/

/-- Store bytes from I on. Where an address is out of bounds, the bytes below it are unspecified and WRITE_OUT_OF_BOUNDS
is raised (R306, R309, D3; log 3). -/
def State.storeBytes (s : State) (i : Instr) (bs : List Byte) : State :=
  match s.mem.writeRange (s.effAddr 0) bs with
  | .ok m => s.setMem m
  | .error bad =>
    ((s.setMem (s.mem.forget s.draws (s.effAddr 0) (bad - s.effAddr 0))).nextDraw).instrFault (.writeOutOfBounds bad) i

/-- The registers V[0], V[1], ... that a read of `n` bytes from I on wrote before its fault point: any values, those of the
draw that is next (R205, R309, D3; log 30). -/
def State.forgetRegs (s : State) (n : Nat) : State :=
  s.loadRegs ((List.range n).map fun j => Config.unspecifiedByte s.draws (s.effAddr j))

/-- Load `n` bytes from I on into V[0], V[1], ... Where an address is out of bounds, the registers of the bytes below it are
unspecified and READ_OUT_OF_BOUNDS is raised (R205, R305, R309, D3; log 30). -/
def State.loadBytes (s : State) (i : Instr) (n : Nat) : State :=
  match s.mem.readRange (s.effAddr 0) n with
  | .ok bs => s.loadRegs bs
  | .error bad => ((s.forgetRegs (bad - s.effAddr 0)).nextDraw).instrFault (.readOutOfBounds bad) i

/-- Read `n` bytes from I on, all before anything is written, and go on with them. Where an address is out of bounds nothing
is written and READ_OUT_OF_BOUNDS is raised (R236, R305, D10). -/
def State.withBytes (s : State) (i : Instr) (n : Nat) (k : List Byte → State) : State :=
  match s.mem.readRange (s.effAddr 0) n with
  | .ok bs => k bs
  | .error bad => s.instrFault (.readOutOfBounds bad) i

/-- Go on with the key that a register names; KEY_INDEX_OUT_OF_RANGE above 15 (R260, R261, R307, D9). -/
def State.withKey (s : State) (i : Instr) (b : Byte) (k : Reg → State) : State :=
  if h : b.toNat < 16 then k ⟨b.toNat, h⟩ else s.instrFault (.keyIndexOutOfRange b) i

/-! ## The timers (R320) -/

/-- A timer counts down by 1 with floor 0 (R320). -/
def countDown (t : Byte) : Byte := if t = 0 then 0 else t - 1

/-- `TimerTick()`: both timers count down, then SOUND_ACTIVE <- (ST > 0) (R320, R322). -/
def State.timerTick (s : State) : State :=
  { s with dt := countDown s.dt, st := countDown s.st, soundActive := decide ((countDown s.st).toNat > 0) }

end Sys2Proof.Machine
end

