-- ==== Sys2Proof/Machine/Alu.lean ====
section
/-! DEFINITION. The meanings of spec/42_alu.md. PC is already advanced (R102); none of these faults. -/

namespace Sys2Proof.Machine

/-- `6xkk`: V[x] <- kk (R162). -/
def execLdImm (x : Reg) (kk : Byte) (s : State) : Result := .next (s.setReg x kk)

/-- `7xkk`: V[x] <- trunc8(V[x] + kk); no flag (R163). -/
def execAddImm (x : Reg) (kk : Byte) (s : State) : Result := .next (s.setReg x (s.reg x + kk))

/-- `8xy0`: V[x] <- V[y] (R164). -/
def execLdReg (x y : Reg) (s : State) : Result := .next (s.setReg x (s.reg y))

/-- `8xy1`: V[x] <- V[x] OR V[y] (R165). -/
def execOrReg (x y : Reg) (s : State) : Result := .next (s.setReg x (s.reg x ||| s.reg y))

/-- `8xy2`: V[x] <- V[x] AND V[y] (R166). -/
def execAndReg (x y : Reg) (s : State) : Result := .next (s.setReg x (s.reg x &&& s.reg y))

/-- `8xy3`: V[x] <- V[x] XOR V[y] (R167). -/
def execXorReg (x y : Reg) (s : State) : Result := .next (s.setReg x (s.reg x ^^^ s.reg y))

/-- `8xy4`: the sum, with VF the carry (R168). -/
def execAddReg (x y : Reg) (s : State) : Result :=
  .next (s.setRegFlag x (s.reg x + s.reg y) (carryFlag (s.reg x) (s.reg y)))

/-- `8xy5`: V[x] - V[y], with VF = 1 when V[x] > V[y] (R169). -/
def execSubReg (x y : Reg) (s : State) : Result :=
  .next (s.setRegFlag x (s.reg x - s.reg y) (greaterFlag (s.reg x) (s.reg y)))

/-- `8xy6`: V[x] >> 1, with VF the old bit 0; V[y] is not read (R170). -/
def execShr (x _y : Reg) (s : State) : Result :=
  .next (s.setRegFlag x (s.reg x >>> 1) (lowBitFlag (s.reg x)))

/-- `8xy7`: V[y] - V[x], with VF = 1 when V[y] > V[x] (R171). -/
def execSubnReg (x y : Reg) (s : State) : Result :=
  .next (s.setRegFlag x (s.reg y - s.reg x) (greaterFlag (s.reg y) (s.reg x)))

/-- `8xyE`: V[x] << 1, with VF the old bit 7; V[y] is not read (R172). -/
def execShl (x _y : Reg) (s : State) : Result :=
  .next (s.setRegFlag x (s.reg x <<< 1) (highBitFlag (s.reg x)))

/-- `Cxkk`: V[x] <- a fresh draw AND kk (R173, R38; log 4). -/
def execRnd (x : Reg) (kk : Byte) (s : State) : Result :=
  .next ((s.setReg x (Config.randomByte s.draws &&& kk)).nextDraw)

end Sys2Proof.Machine
end

