-- ==== Sys2Proof/Machine/ControlFlow.lean ====
section
/-! DEFINITION. The meanings of spec/41_control_flow.md. PC is already advanced (R102). -/

namespace Sys2Proof.Machine

/-- `00EE`: PC <- Pop(), or STACK_UNDERFLOW with nothing changed (R132, R303). -/
def execRet (s : State) : Result :=
  match s.pop with
  | some (target, t) => .next (t.setPc target)
  | none => .next (s.instrFault .stackUnderflow .ret)

/-- `1nnn`: PC <- nnn (R133). -/
def execJp (nnn : Addr12) (s : State) : Result := .next (s.setPc (addrOperand nnn))

/-- `2nnn`: Push(PC), then PC <- nnn; STACK_OVERFLOW leaves PC and the stack alone (R134, R302). -/
def execCall (nnn : Addr12) (s : State) : Result :=
  match s.push s.pc with
  | some t => .next (t.setPc (addrOperand nnn))
  | none => .next (s.instrFault (.stackOverflow s.pc) (.call nnn))

/-- `3xkk`: skip if V[x] == kk (R135). -/
def execSeImm (x : Reg) (kk : Byte) (s : State) : Result := .next (s.skipIf (s.reg x == kk))

/-- `4xkk`: skip if V[x] != kk (R136). -/
def execSneImm (x : Reg) (kk : Byte) (s : State) : Result := .next (s.skipIf (s.reg x != kk))

/-- `5xy0`: skip if V[x] == V[y] (R137). -/
def execSeReg (x y : Reg) (s : State) : Result := .next (s.skipIf (s.reg x == s.reg y))

/-- `9xy0`: skip if V[x] != V[y] (R138). -/
def execSneReg (x y : Reg) (s : State) : Result := .next (s.skipIf (s.reg x != s.reg y))

/-- `Bnnn`: PC <- nnn + V[0] (R139). -/
def execJpV0 (nnn : Addr12) (s : State) : Result := .next (s.setPc (jumpV0Target s nnn))

end Sys2Proof.Machine
end

