-- ==== Sys2Proof/Machine/Display.lean ====
section
/-! DEFINITION. The sprite engine and the meanings of spec/44_display.md. -/

namespace Sys2Proof.Machine

/-- Every cell false (R235). -/
def Framebuffer.clear : Framebuffer := Vector.replicate 32 (Vector.replicate 64 false)

/-- FB[r][c] <- not FB[r][c] (R232). -/
def Framebuffer.toggle (fb : Framebuffer) (r : Fin 32) (c : Fin 64) : Framebuffer :=
  fb.set r (fb[r].set c (!fb[r][c]))

/-- The sprite bit of column `col`: bit 7 - col of the row byte, so bit 7 is the leftmost (R231; PRESUMED, log 20). -/
def spriteBit (b : Byte) (col : Nat) : Bool := b.getLsbD (7 - col)

/-- The framebuffer row of sprite row `row`: (y0 + row) mod 32 (R232, R234). -/
def spriteRow (y0 : Byte) (row : Nat) : Fin 32 := ⟨(y0.toNat + row) % 32, Nat.mod_lt _ (by decide)⟩

/-- The framebuffer column of sprite column `col`: (x0 + col) mod 64 (R232, R234). -/
def spriteCol (x0 : Byte) (col : Nat) : Fin 64 := ⟨(x0.toNat + col) % 64, Nat.mod_lt _ (by decide)⟩

/-- A framebuffer being drawn on, with the collision seen so far (R232). -/
abbrev Drawing := Framebuffer × Bool

/-- One set bit: collision if the cell was true, then the cell is toggled (R232, R233). -/
def plot (d : Drawing) (r : Fin 32) (c : Fin 64) : Drawing :=
  (d.1.toggle r c, d.2 || d.1.cell r c)

/-- The eight columns of sprite row `row` (R232). -/
def drawRow (x0 y0 : Byte) (row : Nat) (b : Byte) (d : Drawing) : Drawing :=
  (List.range 8).foldl
    (fun d col => if spriteBit b col then plot d (spriteRow y0 row) (spriteCol x0 col) else d) d

/-- The rows of a sprite, `row` counting up from the given number (R232). -/
def drawRows (x0 y0 : Byte) : Nat → List Byte → Drawing → Drawing
  | _, [], d => d
  | row, b :: bs, d => drawRows x0 y0 (row + 1) bs (drawRow x0 y0 row b d)

/-- `DrawSprite(x0, y0, rows)`: the framebuffer after it and the collision (R232). -/
def drawSprite (x0 y0 : Byte) (rows : List Byte) (fb : Framebuffer) : Drawing :=
  drawRows x0 y0 0 rows (fb, false)

/-- `00E0`: every cell false, DIRTY set (R235). -/
def execCls (s : State) : Result := .next (s.setFb Framebuffer.clear)

/-- `Dxyn`: all sprite bytes are read, then the sprite is drawn, then VF <- collision and DIRTY <- true (R236, D10). -/
def execDrw (x y : Reg) (n : Rows) (s : State) : Result :=
  .next (s.withBytes (.drw x y n) n.val fun rows =>
    let d := drawSprite (s.reg x) (s.reg y) rows s.fb
    (s.setFb d.1).setReg vf (flagByte d.2))

end Sys2Proof.Machine
end

