-- ==== Sys2Proof/Machine/IndexMemory.lean ====
section
/-! DEFINITION. The meanings of spec/43_index_memory.md. No transfer changes I (R206, D6; log 9). -/

namespace Sys2Proof.Machine

/-- `Annn`: I <- nnn (R200). -/
def execLdI (nnn : Addr12) (s : State) : Result := .next (s.setI (addrOperand nnn))

/-- `Fx1E`: I <- trunc16(I + V[x]); VF unchanged (R201). -/
def execAddI (x : Reg) (s : State) : Result := .next (s.setI (s.i + (s.reg x).setWidth 16))

/-- `Fx29`: I <- V[x] * 5 (R202). -/
def execLdF (x : Reg) (s : State) : Result := .next (s.setI (glyphAddr (s.reg x)))

/-- `Fx33`: the decimal digits of V[x] at I, I + 1, I + 2 (R203). -/
def execLdB (x : Reg) (s : State) : Result := .next (s.storeBytes (.ldB x) (bcdDigits (s.reg x)))

/-- `Fx55`: V[0] to V[x] to memory from I on (R204). -/
def execStoreRegs (x : Reg) (s : State) : Result := .next (s.storeBytes (.storeRegs x) (s.regRange x))

/-- `Fx65`: memory from I on to V[0] to V[x]; on READ_OUT_OF_BOUNDS the registers below the fault point are unspecified
(R205, R309, D3; log 30). -/
def execLoadRegs (x : Reg) (s : State) : Result :=
  .next (s.loadBytes (.loadRegs x) (rangeLength x))

end Sys2Proof.Machine
end

