-- ==== Sys2Proof/Machine/TimersKeys.lean ====
section
/-! DEFINITION. The meanings of spec/45_timers_keys.md. -/

namespace Sys2Proof.Machine

/-- `Ex9E`: skip if the key V[x] is down (R260). -/
def execSkp (x : Reg) (s : State) : Result :=
  .next (s.withKey (.skp x) (s.reg x) fun k => s.skipIf (s.keyDown k))

/-- `ExA1`: skip if the key V[x] is up (R261). -/
def execSknp (x : Reg) (s : State) : Result :=
  .next (s.withKey (.sknp x) (s.reg x) fun k => s.skipIf (!s.keyDown k))

/-- `Fx07`: V[x] <- DT (R262). -/
def execLdVxDt (x : Reg) (s : State) : Result := .next (s.setReg x s.dt)

/-- `Fx0A`: RUNSTATE <- Halted(x); V[x] is written only when a key-down resolves the wait (R263). -/
def execLdVxK (x : Reg) (s : State) : Result := .next (s.setRunState (.halted x))

/-- `Fx15`: DT <- V[x] (R264). -/
def execLdDtVx (x : Reg) (s : State) : Result := .next (s.setDt (s.reg x))

/-- `Fx18`: ST <- V[x]; SOUND_ACTIVE is left alone (R265). -/
def execLdStVx (x : Reg) (s : State) : Result := .next (s.setSt (s.reg x))

end Sys2Proof.Machine
end

