-- ==== Sys2Proof/Machine/Unrecognized.lean ====
section
/-! DEFINITION. The meanings of spec/46_unrecognized.md: "no-op (silently ignored)"; only the fetch advance of R101 has
happened. One definition for each fallback row. -/

namespace Sys2Proof.Machine

/-- The no-op (R290). -/
def noOp (s : State) : Result := .next s

/-- `0nnn` SYS: a no-op, `nnn` ignored (R291, C3). -/
def execSys (_nnn : Addr12) (s : State) : Result := noOp s

/-- Family 5 with n != 0 (R290). -/
def execNop5 (_low : Addr12) (s : State) : Result := noOp s

/-- Family 8 with an unlisted n (R290). -/
def execNop8 (_low : Addr12) (s : State) : Result := noOp s

/-- Family 9 with n != 0 (R290). -/
def execNop9 (_low : Addr12) (s : State) : Result := noOp s

/-- Family E with an unlisted kk (R290). -/
def execNopE (_low : Addr12) (s : State) : Result := noOp s

/-- Family F with an unlisted kk (R290). -/
def execNopF (_low : Addr12) (s : State) : Result := noOp s

end Sys2Proof.Machine
end

