-- ==== Sys2Proof/Machine/Cycle.lean ====
section
/-! DEFINITION. One instruction (spec/40_interpreter_cycle.md R101), the per-frame tick `Cycle` (R110), and one slot of
a `Cycle` in progress, which is what a step performs (log 1). -/

namespace Sys2Proof.Machine

/-- Go on from a next state; a fault or a refusal stays what it is. -/
def onNext (r : Result) (k : State → Result) : Result :=
  match r with
  | .next s => k s
  | .fault f => .fault f
  | .refused f => .refused f

/-- `Fetch(PC)`: the big-endian word at PC, or the first byte address that is out of bounds (R55). -/
def fetch (s : State) : Except Nat Word :=
  match s.mem.readRange s.pc.toNat 2 with
  | .ok bs =>
    match bs with
    | [hi, lo] => .ok (wordOfBytes hi lo)
    | _ => .error s.pc.toNat
  | .error bad => .error bad

/-- `Step()`: fetch, advance PC by 2, execute (R101). A fetch fault comes before the advance and records no word
(R301, R304). -/
def instrStep (s : State) : Result :=
  match fetch s with
  | .ok w => exec (decodeWord w) (s.setPc (s.pc + 2))
  | .error bad => .next (s.takeFault (.fetchOutOfBounds bad) s.pc none)

/-- Step 3 of `Cycle`: up to `n` instructions, stopping when RUNSTATE is no longer Running (R114). -/
def batch : Nat → State → Result
  | 0, s => .next s
  | n + 1, s => onNext (instrStep s) fun t =>
    match t.runState with
    | .running => batch n t
    | .halted _ => .next t
    | .faulted _ => .next t

/-- Step 4 of `Cycle`: the timer tick, if still Running (R115). -/
def tickIfRunning (s : State) : State :=
  match s.runState with
  | .running => s.timerTick
  | .halted _ => s
  | .faulted _ => s

/-- `Cycle()` as the host calls it, between two others (R110 to R116). -/
def cycle (s : State) : Result :=
  match s.runState with
  | .running => onNext (batch s.ipt s.clearOutputFlags) fun t => .next (tickIfRunning t)
  | .halted _ => .next s
  | .faulted _ => .next s

/-- Step 2 of `Cycle`, at the first slot of a batch (R113). -/
def beginSlot (s : State) : State := if s.batchDone = 0 then s.clearOutputFlags else s

/-- What follows the instruction of a slot: the next slot of the batch, or the end of the `Cycle` with its timer tick;
no tick if the instruction halted or faulted (R114, R115, R310). -/
def endSlot (s : State) : State :=
  match s.runState with
  | .running =>
    if s.batchDone + 1 < s.ipt then s.setBatchDone (s.batchDone + 1) else s.timerTick.setBatchDone 0
  | .halted _ => s.setBatchDone 0
  | .faulted _ => s.setBatchDone 0

/-- One slot of a `Cycle` in Running. With IPT = 0 the whole `Cycle` is steps 2 and 4 (R116). -/
def runSlot (s : State) : Result :=
  if s.ipt = 0 then .next ((beginSlot s).timerTick.setBatchDone 0)
  else onNext (instrStep (beginSlot s)) fun t => .next (endSlot t)

/-- The state with the bytes of a word at PC, in a core that fetches it next: Running, with a slot to run it in, and at
an address that can be fetched. A state that already is all this changes in memory only. -/
def placeWord (s : State) (w : Word) : State :=
  let a := if s.pc.toNat + 1 < Config.memSize then s.pc else BitVec.ofNat 16 Config.progStart
  { s with
    mem := s.mem.writeAll a.toNat (bytesOfWord w)
    pc := a
    runState := .running
    ipt := if s.ipt = 0 then 1 else s.ipt }

end Sys2Proof.Machine
end

