-- ==== Sys2Proof/Machine/Step.lean ====
section
/-! DEFINITION. The step of the machine: what the core does while the host calls `Cycle` again and again and makes no
other call (log 1), one instruction slot at a time. -/

namespace Sys2Proof.Machine

/-- One step. Running: one slot of the `Cycle` in progress, or the first of a new one (R110). Halted: a `Cycle` changes
nothing (R111). Faulted: the machine has stopped for good (R112, R310; log 2). -/
def step (s : State) : Host.Outcome State Fault Refusal :=
  match s.runState with
  | .running => runSlot s
  | .halted _ => .next s
  | .faulted r => .fault (.contractViolation r)

/-- The state in which the next step fetches and runs the instruction `w` of `nbits` bits (numbered as
spec/opcode_table.json numbers them; the bits above are 0). It stands for a program loaded at PC (log 26). -/
def State.withFetchWord (s : State) (nbits w : Nat) : State :=
  placeWord s (BitVec.ofNat 16 (w % 2 ^ nbits))

end Sys2Proof.Machine
end

