-- ==== Sys2Proof/Machine/HostOps.lean ====
section
/-! DEFINITION. The host interface (spec/60_exceptions.md R330 to R334, spec/70_reset_and_hazards.md R350 to R356): the
calls of the outside world, each atomic and made between two `Cycle` calls (R119; log 27). -/

namespace Sys2Proof.Machine

/-- Why a host call is rejected. A rejected call changes no state (R334). -/
inductive HostError where
  /-- LOAD_TOO_LARGE: `InsertProgram` with len(bytes) + 0x200 > 4096. -/
  | loadTooLarge
  /-- HOST_KEY_OUT_OF_RANGE: `SetKeyDown` or `SetKeyUp` with k > 15 (D16; log 17). -/
  | hostKeyOutOfRange
  deriving DecidableEq, Repr

/-- `Construct(FONT, IPT, RNG)`: zeroed memory with the 80 font bytes at 0x000, every other element at its value of R40
(R350). `rng` is the draw source: where in the free sequence the instance begins (R353, D13). -/
def construct (font : Vector Byte 80) (ipt rng : Nat) : State :=
  { State.reset with
    mem := State.reset.mem.writeAll 0 font.toList
    ipt := ipt
    draws := rng }

/-- `InsertProgram(bytes)`: loads at 0x200 and sets PC = 0x200, or is rejected; nothing else changes (R355, R356). -/
def insertProgram (bytes : List Byte) (s : State) : Except HostError State :=
  match s.mem.loadBulk Config.progStart bytes with
  | some m => .ok ((s.setMem m).setPc (BitVec.ofNat 16 Config.progStart))
  | none => .error .loadTooLarge

/-- A key-down resolves a pending wait: V[x] <- k and RUNSTATE <- Running (R331). -/
def resolveWait (k : Reg) (s : State) : State :=
  match s.runState with
  | .halted x => (s.setReg x (BitVec.ofNat 8 k.val)).setRunState .running
  | .running => s
  | .faulted _ => s

/-- `SetKeyDown(k)` (R331). -/
def setKeyDown (k : Nat) (s : State) : Except HostError State :=
  if h : k < 16 then .ok (resolveWait ⟨k, h⟩ (s.setKey ⟨k, h⟩ true)) else .error .hostKeyOutOfRange

/-- `SetKeyUp(k)`: it never changes RUNSTATE (R332). -/
def setKeyUp (k : Nat) (s : State) : Except HostError State :=
  if h : k < 16 then .ok (s.setKey ⟨k, h⟩ false) else .error .hostKeyOutOfRange

/-- What a query answers (R333, R41). -/
structure Output where
  fb : Framebuffer
  dirty : Bool
  soundActive : Bool
  deriving DecidableEq, Repr

/-- The query: it reads the framebuffer and the two output flags, and changes nothing (R333). -/
def query (s : State) : Output := ⟨s.fb, s.dirty, s.soundActive⟩

/-- The calls of the host on an instance that change its state (R330). -/
inductive HostCall where
  | insertProgram (bytes : List Byte)
  | cycle
  | setKeyDown (k : Nat)
  | setKeyUp (k : Nat)
  deriving DecidableEq, Repr

/-- What a host call answers. -/
inductive HostResult where
  /-- The call was performed. -/
  | done (s : State)
  /-- The call was rejected and changed nothing (R334). -/
  | rejected (e : HostError)
  /-- The `Cycle` answered no next state: `exec` refused an instruction. No arm of this model does. -/
  | stopped
  deriving DecidableEq, Repr

/-- The answer of a call that may be rejected. -/
def HostResult.ofExcept : Except HostError State → HostResult
  | .ok s => .done s
  | .error e => .rejected e

/-- Perform one host call (R330). -/
def HostCall.run (c : HostCall) (s : State) : HostResult :=
  match c with
  | .insertProgram bytes => .ofExcept (Sys2Proof.Machine.insertProgram bytes s)
  | .setKeyDown k => .ofExcept (Sys2Proof.Machine.setKeyDown k s)
  | .setKeyUp k => .ofExcept (Sys2Proof.Machine.setKeyUp k s)
  | .cycle =>
    match Sys2Proof.Machine.cycle s with
    | .next t => .done t
    | .fault _ => .stopped
    | .refused _ => .stopped

/-- The state after a sequence of host calls: "in any order and any number of times" (R330). A rejected call leaves the
state as it was (R334). -/
def runCalls : List HostCall → State → State
  | [], s => s
  | c :: cs, s =>
    match c.run s with
    | .done t => runCalls cs t
    | .rejected _ => runCalls cs s
    | .stopped => s

end Sys2Proof.Machine
end

