-- ==== Sys2Proof/Safety.lean ====
section
/-! DEFINITION. What counts as safe, in the terms that statements use: a state that has not faulted, and the invariant
of the states that a run can reach. -/

namespace Sys2Proof.Machine

/-- RUNSTATE is Running (R37). -/
abbrev State.isRunning (s : State) : Prop := s.runState = .running

/-- RUNSTATE is Faulted: "never final", so no safe run reaches it (R310). -/
def State.isFaulted (s : State) : Bool :=
  match s.runState with
  | .running => false
  | .halted _ => false
  | .faulted _ => true

/-- A state a safe run may end in (R310). -/
abbrev State.safe (s : State) : Prop := s.isFaulted = false

/-- PC stays within what any rule can write: at most 0x10FE (R26). -/
abbrev State.pcBounded (s : State) : Prop := s.pc.toNat ≤ 0x10FE

/-- Every occupied stack slot holds an address that a call pushed: at most 0x1000 (R134). -/
abbrev State.stackBounded (s : State) : Prop := ∀ j : Fin 16, j.val < s.sp.val → (s.stack[j]).toNat ≤ 0x1000

/-- The position in the batch is one of the IPT slots, and a `Cycle` is in progress only while Running (log 1). -/
abbrev State.batchBounded (s : State) : Prop :=
  (s.batchDone = 0 ∨ s.batchDone < s.ipt) ∧ (s.runState ≠ .running → s.batchDone = 0)

/-- The invariant of every reachable state. -/
structure State.Inv (s : State) : Prop where
  memWf : s.mem.wf
  pcBounded : s.pcBounded
  stackBounded : s.stackBounded
  batchBounded : s.batchBounded

end Sys2Proof.Machine
end

