-- ==== Sys2Proof/Certificates/Slice0/Obligations.lean ====
section
/-! DEFINITION. The statements for the provers. Each is in terms of `exec`, `step`, the host calls and the accessors of
the model; values are compared as natural numbers, as spec/00_scope.md R10 writes them. `exec` runs on a state whose PC
is already advanced (R102; log 25). -/

namespace Sys2Proof.Claims

open Sys2Proof Sys2Proof.Machine

/-! ## The vocabulary of the frames -/

/-- An element of the state, down to one register, slot, byte, cell or key. -/
inductive Elem where
  | reg (x : Reg)
  | i
  | pc
  | slot (j : Fin 16)
  | sp
  | mem (a : Nat)
  | dt
  | st
  | cell (r : Fin 32) (c : Fin 64)
  | dirty
  | soundActive
  | key (k : Reg)
  | runState
  | ipt
  | batchDone
  | draws
  deriving DecidableEq, Repr

/-- The element has the same value in both states. -/
def Elem.same (s t : State) : Elem → Prop
  | .reg x => t.reg x = s.reg x
  | .i => t.i = s.i
  | .pc => t.pc = s.pc
  | .slot j => t.stack[j] = s.stack[j]
  | .sp => t.sp = s.sp
  | .mem a => t.mem.read a = s.mem.read a
  | .dt => t.dt = s.dt
  | .st => t.st = s.st
  | .cell r c => t.fb.cell r c = s.fb.cell r c
  | .dirty => t.dirty = s.dirty
  | .soundActive => t.soundActive = s.soundActive
  | .key k => t.keyDown k = s.keyDown k
  | .runState => t.runState = s.runState
  | .ipt => t.ipt = s.ipt
  | .batchDone => t.batchDone = s.batchDone
  | .draws => t.draws = s.draws

/-- The frame: every element but those named is unchanged from `s` to `t`. -/
def Frame (changed : Elem → Prop) (s t : State) : Prop := ∀ e, ¬ changed e → e.same s t

/-- The frame that names the elements of a list. -/
def Only (changed : List Elem) (s t : State) : Prop := Frame (· ∈ changed) s t

/-- The answer is a next state, and it has the property. -/
def Completes (r : Result) (p : State → Prop) : Prop := ∃ t, r = .next t ∧ p t

/-- The instruction faults: RUNSTATE holds the record with the kind, the instruction's address (PC - 2) and its word, and
nothing outside `changed` has changed but RUNSTATE (R300, R301, R309; the Faulted state is the spec's decision D2, log 2). -/
def Faults (i : Instr) (s : State) (k : FaultKind) (changed : Elem → Prop) : Prop :=
  Completes (exec i s) fun t =>
    t.runState = .faulted ⟨k, s.pc - 2, some (encode i)⟩ ∧ Frame (fun e => e = .runState ∨ changed e) s t

/-- No element. -/
def nothing : Elem → Prop := fun _ => False

/-- The bytes from `a` on, `n` of them. -/
def bytesAt (a n : Nat) : Elem → Prop := fun e => ∃ b, a ≤ b ∧ b < a + n ∧ e = .mem b

/-- A condition as the flag value 1 or 0. -/
def flagNat (p : Prop) [Decidable p] : Nat := if p then 1 else 0

/-- A sprite bit of `rows` drawn at (x0, y0) lands on row r, column c (R232, with the bit order of R231, log 20). -/
def SpriteCovers (x0 y0 : Byte) (rows : List Byte) (r : Fin 32) (c : Fin 64) : Prop :=
  ∃ row col, ∃ b : Byte, rows[row]? = some b ∧ col < 8 ∧ b.toNat / 2 ^ (7 - col) % 2 = 1 ∧
    r.val = (y0.toNat + row) % 32 ∧ c.val = (x0.toNat + col) % 64

/-- The sprite bytes of a draw: the `n` bytes from I on (R236). -/
def spriteBytes (s : State) (n : Nat) : List Byte := (List.range n).map fun j => s.mem.read (s.effAddr j)

/-- Two states that differ at most in stack slots at SP and above (R29). -/
def SameButStaleSlots (s t : State) : Prop :=
  t = { s with stack := t.stack } ∧ ∀ j : Fin 16, j.val < s.sp.val → t.stack[j] = s.stack[j]

/-- Two answers of the same kind, with related next states. -/
def Related (p : State → State → Prop) : Result → Result → Prop
  | .next s, .next t => p s t
  | .fault f, .fault g => f = g
  | .refused f, .refused g => f = g
  | .next _, .fault _ | .next _, .refused _ | .fault _, .next _ => False
  | .fault _, .refused _ | .refused _, .next _ | .refused _, .fault _ => False

/-- The state an instruction runs in: PC advanced by 2 (R101), and in the first slot of a `Cycle` the output flags
cleared (R113). -/
def slotStart (s : State) : State :=
  { s with
    pc := s.pc + 2
    dirty := if s.batchDone = 0 then false else s.dirty
    soundActive := if s.batchDone = 0 then false else s.soundActive }

/-- The state after the slot of an instruction that left `t`: the next slot of the batch, or the end of the `Cycle` with
its timer tick, or its end without one where the instruction halted or faulted (R114, R115). -/
def slotEnd (t : State) : State :=
  match t.runState with
  | .running =>
    if t.batchDone + 1 < t.ipt then { t with batchDone := t.batchDone + 1 }
    else { t with
      dt := BitVec.ofNat 8 (t.dt.toNat - 1)
      st := BitVec.ofNat 8 (t.st.toNat - 1)
      soundActive := decide (t.st.toNat > 1)
      batchDone := 0 }
  | .halted _ => { t with batchDone := 0 }
  | .faulted _ => { t with batchDone := 0 }

/-- The opcodes that define a flag (R22). -/
def definesFlag : Instr → Bool
  | .addReg _ _ | .subReg _ _ | .shr _ _ | .subnReg _ _ | .shl _ _ | .drw _ _ _ => true
  | .cls | .ret | .jp _ | .call _ | .seImm _ _ | .sneImm _ _ | .seReg _ _ | .ldImm _ _ | .addImm _ _ => false
  | .ldReg _ _ | .orReg _ _ | .andReg _ _ | .xorReg _ _ | .sneReg _ _ | .ldI _ | .jpV0 _ | .rnd _ _ => false
  | .skp _ | .sknp _ | .ldVxDt _ | .ldVxK _ | .ldDtVx _ | .ldStVx _ | .addI _ | .ldF _ | .ldB _ => false
  | .storeRegs _ | .loadRegs _ | .sys _ | .nop5 _ | .nop8 _ | .nop9 _ | .nopE _ | .nopF _ => false

/-- The opcodes that name VF as their destination register when they execute: `6Fkk`, `7Fkk`, `8Fy0` to `8Fy3`, `CFkk`,
`FF07` and `FF65` (R22; `FF0A` writes VF later, when a key-down resolves the wait, R331). -/
def hasDestinationVf : Instr → Bool
  | .ldImm x _ | .addImm x _ | .ldReg x _ | .orReg x _ | .andReg x _ | .xorReg x _ | .rnd x _ => x == vf
  | .ldVxDt x | .loadRegs x => x == vf
  | .cls | .ret | .jp _ | .call _ | .seImm _ _ | .sneImm _ _ | .seReg _ _ | .sneReg _ _ => false
  | .addReg _ _ | .subReg _ _ | .shr _ _ | .subnReg _ _ | .shl _ _ | .drw _ _ _ => false
  | .ldI _ | .jpV0 _ | .skp _ | .sknp _ | .ldVxK _ | .ldDtVx _ | .ldStVx _ | .addI _ | .ldF _ | .ldB _ => false
  | .storeRegs _ | .sys _ | .nop5 _ | .nop8 _ | .nop9 _ | .nopE _ | .nopF _ => false

/-- The instructions that change I: `Annn`, `Fx1E`, `Fx29` (R24). -/
def writesI : Instr → Bool
  | .ldI _ | .addI _ | .ldF _ => true
  | _ => false

/-- The instructions that change PC: returns, jumps, calls and skips (R25). -/
def writesPc : Instr → Bool
  | .ret | .jp _ | .call _ | .jpV0 _ | .seImm _ _ | .sneImm _ _ | .seReg _ _ | .sneReg _ _ | .skp _ | .sknp _ => true
  | _ => false

/-- The instructions that touch the stack: `2nnn`, `00EE` (R27). -/
def writesStack : Instr → Bool
  | .call _ | .ret => true
  | _ => false

/-- The instructions that write memory: `Fx33`, `Fx55` (R50). -/
def writesMem : Instr → Bool
  | .ldB _ | .storeRegs _ => true
  | _ => false

/-- The instructions that write the framebuffer and DIRTY: `00E0`, `Dxyn` (R32, R34). -/
def writesDisplay : Instr → Bool
  | .cls | .drw _ _ _ => true
  | _ => false

end Sys2Proof.Claims

open Sys2Proof Sys2Proof.Machine Sys2Proof.Claims

/-! ## Encoding -/

/-- The fields of a word are its bits by position (R81). -/
def Obligations.FieldsAreBitsOfTheWord : Prop :=
  ∀ w : Word,
    (family w).val = w.toNat / 4096 ∧ (fieldX w).val = w.toNat / 256 % 16 ∧ (fieldY w).val = w.toNat / 16 % 16 ∧
    (fieldN w).val = w.toNat % 16 ∧ (fieldKk w).toNat = w.toNat % 256 ∧ (fieldNnn w).toNat = w.toNat % 4096

/-- A word of each family, written out bit by bit from R83, decodes to its instruction. -/
def Obligations.WrittenOutWordsDecode : Prop :=
  decodeWord 0b0000000011100000 = .cls ∧ decodeWord 0b0001001000110100 = .jp 0x234 ∧
  decodeWord 0b1000001000111110 = .shl 2 3 ∧ decodeWord 0b1101101010110101 = .drw 0xA 0xB 5 ∧
  decodeWord 0b1110001010100001 = .sknp 2 ∧ decodeWord 0b1111001001100101 = .loadRegs 2 ∧
  decodeWord 0b0000000100100011 = .sys 0x123

/-- No bit of an instruction is lost: decoding the encoding of a well-formed instruction gives it back, from a word and
from the bytes a program holds. -/
def Obligations.DecodeOfEncodeIsTheInstruction : Prop :=
  ∀ (i : Instr) (rest : List Byte), i.wellFormed = true →
    decodeWord (encode i) = i ∧ decodeBytes (encodeBytes i ++ rest) = .ok (i, rest)

/-- Every word decodes to a well-formed instruction that encodes back to it: decoding is total and loses nothing. -/
def Obligations.EncodeOfDecodeIsTheWord : Prop :=
  ∀ w : Word, (decodeWord w).wellFormed = true ∧ encode (decodeWord w) = w

/-- The decoder reads the opcode map: a word selects an exact row when its bits under the mask are the match, and exactly
then decodes to that row's instruction (the masks are the spec's own reading, D14; log 15). -/
def Obligations.DecoderFollowsTheOpcodeMap : Prop :=
  ∀ (w : Word), ∀ r ∈ exactRows, r.selects w = true ↔ (decodeWord w).mnemonic = r.mnemonic

/-- R84: every word matches exactly one exact row, or none and then executes as a no-op. -/
def Obligations.EveryWordMatchesOneRowOrIsANoOp : Prop :=
  ∀ w : Word,
    (∃ r ∈ exactRows, r.selects w = true ∧ ∀ q ∈ exactRows, q.selects w = true → q = r) ∨
    ((∀ r ∈ exactRows, r.selects w = false) ∧ ∀ s, exec (decodeWord w) s = .next s)

/-! ## Register file and ALU -/

/-- R162. -/
def Obligations.LoadImmediate : Prop :=
  ∀ (x : Reg) (kk : Byte) (s : State), (encode (.ldImm x kk)).toNat = 0x6000 + x.val * 256 + kk.toNat ∧
    Completes (exec (.ldImm x kk) s) fun t => t.reg x = kk ∧ Only [.reg x] s t

/-- R163. -/
def Obligations.AddImmediateSetsNoFlag : Prop :=
  ∀ (x : Reg) (kk : Byte) (s : State), (encode (.addImm x kk)).toNat = 0x7000 + x.val * 256 + kk.toNat ∧
    Completes (exec (.addImm x kk) s) fun t =>
      (t.reg x).toNat = ((s.reg x).toNat + kk.toNat) % 256 ∧ Only [.reg x] s t

/-- R164. -/
def Obligations.CopyRegister : Prop :=
  ∀ (x y : Reg) (s : State), (encode (.ldReg x y)).toNat = 0x8000 + x.val * 256 + y.val * 16 ∧
    Completes (exec (.ldReg x y) s) fun t => t.reg x = s.reg y ∧ Only [.reg x] s t

/-- R165, R166, R167: bit by bit, and no flag. -/
def Obligations.LogicIsBitwiseAndSetsNoFlag : Prop :=
  ∀ (x y : Reg) (s : State),
    ((encode (.orReg x y)).toNat = 0x8001 + x.val * 256 + y.val * 16 ∧
      Completes (exec (.orReg x y) s) fun t =>
        (∀ b, (t.reg x).getLsbD b = ((s.reg x).getLsbD b || (s.reg y).getLsbD b)) ∧ Only [.reg x] s t) ∧
    ((encode (.andReg x y)).toNat = 0x8002 + x.val * 256 + y.val * 16 ∧
      Completes (exec (.andReg x y) s) fun t =>
        (∀ b, (t.reg x).getLsbD b = ((s.reg x).getLsbD b && (s.reg y).getLsbD b)) ∧ Only [.reg x] s t) ∧
    ((encode (.xorReg x y)).toNat = 0x8003 + x.val * 256 + y.val * 16 ∧
      Completes (exec (.xorReg x y) s) fun t =>
        (∀ b, (t.reg x).getLsbD b = ((s.reg x).getLsbD b ^^ (s.reg y).getLsbD b)) ∧ Only [.reg x] s t)

/-- R168: the carry from the old operands, written last. -/
def Obligations.AddRegistersSetsCarry : Prop :=
  ∀ (x y : Reg) (s : State), (encode (.addReg x y)).toNat = 0x8004 + x.val * 256 + y.val * 16 ∧
    Completes (exec (.addReg x y) s) fun t =>
      (t.reg vf).toNat = flagNat ((s.reg x).toNat + (s.reg y).toNat > 255) ∧
      (x ≠ vf → (t.reg x).toNat = ((s.reg x).toNat + (s.reg y).toNat) % 256) ∧ Only [.reg x, .reg vf] s t

/-- R169: the flag is strict, so equal operands give 0. -/
def Obligations.SubtractRegistersSetsStrictFlag : Prop :=
  ∀ (x y : Reg) (s : State), (encode (.subReg x y)).toNat = 0x8005 + x.val * 256 + y.val * 16 ∧
    Completes (exec (.subReg x y) s) fun t =>
      (t.reg vf).toNat = flagNat ((s.reg x).toNat > (s.reg y).toNat) ∧
      (x ≠ vf → (t.reg x).toNat = ((s.reg x).toNat + 256 - (s.reg y).toNat) % 256) ∧ Only [.reg x, .reg vf] s t

/-- R171. -/
def Obligations.ReverseSubtractSetsStrictFlag : Prop :=
  ∀ (x y : Reg) (s : State), (encode (.subnReg x y)).toNat = 0x8007 + x.val * 256 + y.val * 16 ∧
    Completes (exec (.subnReg x y) s) fun t =>
      (t.reg vf).toNat = flagNat ((s.reg y).toNat > (s.reg x).toNat) ∧
      (x ≠ vf → (t.reg x).toNat = ((s.reg y).toNat + 256 - (s.reg x).toNat) % 256) ∧ Only [.reg x, .reg vf] s t

/-- R170, R172: the source of both shifts is Vx whatever y is. -/
def Obligations.ShiftsTakeVxOnly : Prop :=
  ∀ (x y : Reg) (s : State),
    ((encode (.shr x y)).toNat = 0x8006 + x.val * 256 + y.val * 16 ∧
      Completes (exec (.shr x y) s) fun t =>
        (t.reg vf).toNat = (s.reg x).toNat % 2 ∧
        (x ≠ vf → (t.reg x).toNat = (s.reg x).toNat / 2) ∧ Only [.reg x, .reg vf] s t) ∧
    ((encode (.shl x y)).toNat = 0x800E + x.val * 256 + y.val * 16 ∧
      Completes (exec (.shl x y) s) fun t =>
        (t.reg vf).toNat = (s.reg x).toNat / 128 ∧
        (x ≠ vf → (t.reg x).toNat = (s.reg x).toNat * 2 % 256) ∧ Only [.reg x, .reg vf] s t)

/-- RND: a fresh draw under the mask kk, so no bit outside kk is set and `Cx00` gives 0. The draw is a free value
(D13, log 4): the statement holds for every value of `draws` and whatever byte the draw is. -/
def Obligations.RandomIsMaskedFreshDraw : Prop :=
  ∀ (x : Reg) (kk : Byte) (s : State), (encode (.rnd x kk)).toNat = 0xC000 + x.val * 256 + kk.toNat ∧
    Completes (exec (.rnd x kk) s) fun t =>
      (∃ r : Byte, r = Config.randomByte s.draws ∧ ∀ b, (t.reg x).getLsbD b = (r.getLsbD b && kk.getLsbD b)) ∧
      t.draws = s.draws + 1 ∧ Only [.reg x, .draws] s t

/-! ## Control flow -/

/-- RET: the popped slot, or STACK_UNDERFLOW with nothing else changed. -/
def Obligations.ReturnPopsOrUnderflows : Prop :=
  ∀ s : State,
    (∀ j : Fin 16, s.sp.val = j.val + 1 → Completes (exec .ret s) fun t =>
      t.pc = s.stack[j] ∧ t.sp.val = j.val ∧ Only [.pc, .sp] s t) ∧
    (s.sp.val = 0 → Faults .ret s .stackUnderflow nothing)

/-- JP: the target is taken as it is (R133). -/
def Obligations.JumpTakesTheTargetAsItIs : Prop :=
  ∀ (nnn : Addr12) (s : State), (encode (.jp nnn)).toNat = 0x1000 + nnn.toNat ∧
    Completes (exec (.jp nnn) s) fun t => t.pc.toNat = nnn.toNat ∧ Only [.pc] s t

/-- CALL: the address after the call is pushed, or STACK_OVERFLOW with the stack and PC as they were. -/
def Obligations.CallPushesOrOverflows : Prop :=
  ∀ (nnn : Addr12) (s : State),
    (∀ j : Fin 16, s.sp.val = j.val → Completes (exec (.call nnn) s) fun t =>
      t.stack[j] = s.pc ∧ t.sp.val = j.val + 1 ∧ t.pc.toNat = nnn.toNat ∧ Only [.slot j, .sp, .pc] s t) ∧
    (s.sp.val = 16 → Faults (.call nnn) s (.stackOverflow s.pc) nothing)

/-- A call and the return from it: PC is the instruction after the call and the stack pointer is as before, whatever the
callee did to every element but SP and the slots below it. -/
def Obligations.CallThenReturnComesBack : Prop :=
  ∀ (nnn : Addr12) (s : State), s.sp.val < 16 →
    Completes (exec (.call nnn) s) fun t =>
      ∀ u : State, u.sp = t.sp → (∀ j : Fin 16, j.val < t.sp.val → u.stack[j] = t.stack[j]) →
        Completes (exec .ret u) fun v => v.pc = s.pc ∧ v.sp = s.sp ∧ Only [.pc, .sp] u v

/-- SE and SNE with a byte (R135, R136). -/
def Obligations.SkipsOnImmediate : Prop :=
  ∀ (x : Reg) (kk : Byte) (s : State),
    ((encode (.seImm x kk)).toNat = 0x3000 + x.val * 256 + kk.toNat ∧
      Completes (exec (.seImm x kk) s) fun t =>
        t.pc.toNat = (if (s.reg x).toNat = kk.toNat then (s.pc.toNat + 2) % 65536 else s.pc.toNat) ∧ Only [.pc] s t) ∧
    ((encode (.sneImm x kk)).toNat = 0x4000 + x.val * 256 + kk.toNat ∧
      Completes (exec (.sneImm x kk) s) fun t =>
        t.pc.toNat = (if (s.reg x).toNat ≠ kk.toNat then (s.pc.toNat + 2) % 65536 else s.pc.toNat) ∧ Only [.pc] s t)

/-- SE and SNE with a register (R137, R138). -/
def Obligations.SkipsOnRegisters : Prop :=
  ∀ (x y : Reg) (s : State),
    ((encode (.seReg x y)).toNat = 0x5000 + x.val * 256 + y.val * 16 ∧
      Completes (exec (.seReg x y) s) fun t =>
        t.pc.toNat = (if (s.reg x).toNat = (s.reg y).toNat then (s.pc.toNat + 2) % 65536 else s.pc.toNat) ∧
        Only [.pc] s t) ∧
    ((encode (.sneReg x y)).toNat = 0x9000 + x.val * 256 + y.val * 16 ∧
      Completes (exec (.sneReg x y) s) fun t =>
        t.pc.toNat = (if (s.reg x).toNat ≠ (s.reg y).toNat then (s.pc.toNat + 2) % 65536 else s.pc.toNat) ∧
        Only [.pc] s t)

/-- JP V0: the natural sum, not wrapped to 12 bits (D7; log 10). -/
def Obligations.JumpV0IsNotWrapped : Prop :=
  ∀ (nnn : Addr12) (s : State), (encode (.jpV0 nnn)).toNat = 0xB000 + nnn.toNat ∧
    Completes (exec (.jpV0 nnn) s) fun t => t.pc.toNat = nnn.toNat + (s.reg 0).toNat ∧ Only [.pc] s t

/-! ## Index register and memory -/

/-- R200. -/
def Obligations.LoadIndex : Prop :=
  ∀ (nnn : Addr12) (s : State), (encode (.ldI nnn)).toNat = 0xA000 + nnn.toNat ∧
    Completes (exec (.ldI nnn) s) fun t => t.i.toNat = nnn.toNat ∧ Only [.i] s t

/-- ADD I: the sum modulo 2^16 (D8; log 29), VF unchanged. -/
def Obligations.AddIndexWrapsWithoutFlag : Prop :=
  ∀ (x : Reg) (s : State), (encode (.addI x)).toNat = 0xF01E + x.val * 256 ∧
    Completes (exec (.addI x) s) fun t => t.i.toNat = (s.i.toNat + (s.reg x).toNat) % 65536 ∧ Only [.i] s t

/-- LD F: Vx * 5, Vx not masked. -/
def Obligations.GlyphAddressIsFiveTimesVx : Prop :=
  ∀ (x : Reg) (s : State), (encode (.ldF x)).toNat = 0xF029 + x.val * 256 ∧
    Completes (exec (.ldF x) s) fun t => t.i.toNat = (s.reg x).toNat * 5 ∧ Only [.i] s t

/-- LD B in bounds: the three decimal digits at I, I + 1, I + 2, and no other byte. -/
def Obligations.BcdStoresThreeDigits : Prop :=
  ∀ (x : Reg) (s : State), s.i.toNat + 2 < 4096 →
    Completes (exec (.ldB x) s) fun t =>
      (t.mem.read (s.effAddr 0)).toNat = (s.reg x).toNat / 100 ∧
      (t.mem.read (s.effAddr 1)).toNat = (s.reg x).toNat / 10 % 10 ∧
      (t.mem.read (s.effAddr 2)).toNat = (s.reg x).toNat % 10 ∧ Frame (bytesAt (s.effAddr 0) 3) s t

/-- LD [I] in bounds: V0 to Vx to I on, and no other byte; I is unchanged (D6; log 9). -/
def Obligations.StoreRegistersWritesTheRange : Prop :=
  ∀ (x : Reg) (s : State), s.i.toNat + x.val < 4096 →
    Completes (exec (.storeRegs x) s) fun t =>
      (∀ j : Reg, j.val ≤ x.val → t.mem.read (s.effAddr j.val) = s.reg j) ∧
      Frame (bytesAt (s.effAddr 0) (x.val + 1)) s t

/-- LD Vx, [I] in bounds: the bytes from I on to V0 to Vx, and no other register; I is unchanged (D6; log 9). -/
def Obligations.LoadRegistersReadsTheRange : Prop :=
  ∀ (x : Reg) (s : State), s.i.toNat + x.val < 4096 →
    Completes (exec (.loadRegs x) s) fun t =>
      (∀ j : Reg, j.val ≤ x.val → t.reg j = s.mem.read (s.effAddr j.val)) ∧
      Frame (fun e => ∃ j : Reg, j.val ≤ x.val ∧ e = .reg j) s t

/-- LD B and LD [I] out of bounds: WRITE_OUT_OF_BOUNDS at the first address >= 4096; only the bytes from I to 0xFFF may
have changed, to values nothing is known of (D2, D3; log 2, log 3), with the count of draws. -/
def Obligations.StoresOutOfBoundsFault : Prop :=
  ∀ (x : Reg) (s : State),
    (4096 ≤ s.i.toNat + 2 → Faults (.ldB x) s (.writeOutOfBounds (max s.i.toNat 4096))
      fun e => e = .draws ∨ bytesAt s.i.toNat (4096 - s.i.toNat) e) ∧
    (4096 ≤ s.i.toNat + x.val → Faults (.storeRegs x) s (.writeOutOfBounds (max s.i.toNat 4096))
      fun e => e = .draws ∨ bytesAt s.i.toNat (4096 - s.i.toNat) e)

/-- LD Vx, [I] and DRW out of bounds: READ_OUT_OF_BOUNDS at the first address >= 4096 (D2, D7; log 2, log 10). DRW faults
before any write (D10; log 12). Of LD Vx, [I] only the registers of the bytes in bounds may have changed, to values nothing
is known of (D3; log 3, log 30), with the count of draws. -/
def Obligations.ReadsOutOfBoundsFault : Prop :=
  ∀ (x y : Reg) (n : Rows) (s : State),
    (4096 ≤ s.i.toNat + x.val → Faults (.loadRegs x) s (.readOutOfBounds (max s.i.toNat 4096))
      fun e => e = .draws ∨ ∃ j : Reg, s.i.toNat + j.val < 4096 ∧ e = .reg j) ∧
    (0 < n.val → 4096 < s.i.toNat + n.val → Faults (.drw x y n) s (.readOutOfBounds (max s.i.toNat 4096)) nothing)

/-! ## Display -/

/-- R235: every cell false, DIRTY true, even on a clear screen. -/
def Obligations.ClearScreen : Prop :=
  ∀ s : State, (encode .cls).toNat = 0x00E0 ∧
    Completes (exec .cls s) fun t => (∀ r c, t.fb.cell r c = false) ∧ t.dirty = true ∧
      Frame (fun e => e = .dirty ∨ ∃ r c, e = .cell r c) s t

/-- The sprite engine: each cell is toggled exactly when a set bit lands on it, wrapping at both edges, and the collision
is that such a cell was lit. At most 15 rows, so no two pixels land on one cell. The bit order is log 20. -/
def Obligations.DrawSpriteTogglesCoveredCells : Prop :=
  ∀ (x0 y0 : Byte) (rows : List Byte) (fb : Framebuffer), rows.length ≤ 15 →
    (∀ r c, (drawSprite x0 y0 rows fb).1.cell r c = true ↔
      ((fb.cell r c = true ∧ ¬ SpriteCovers x0 y0 rows r c) ∨ (fb.cell r c = false ∧ SpriteCovers x0 y0 rows r c))) ∧
    ((drawSprite x0 y0 rows fb).2 = true ↔ ∃ r c, SpriteCovers x0 y0 rows r c ∧ fb.cell r c = true)

/-- Two draws of one sprite at one place cancel out, and the second collides exactly when the first lit a cell. -/
def Obligations.DoubleDrawCancels : Prop :=
  ∀ (x0 y0 : Byte) (rows : List Byte) (fb : Framebuffer), rows.length ≤ 15 →
    (drawSprite x0 y0 rows (drawSprite x0 y0 rows fb).1).1 = fb ∧
    ((drawSprite x0 y0 rows (drawSprite x0 y0 rows fb).1).2 = true ↔
      ∃ r c, fb.cell r c = false ∧ (drawSprite x0 y0 rows fb).1.cell r c = true)

/-- DRW in bounds (no row at all for n = 0, D18): the covered cells are toggled, VF is the collision, DIRTY is set, I and
memory are unchanged; the coordinates are the old Vx and Vy, VF among them. The bit order is log 20. -/
def Obligations.DrawTogglesAndSetsCollision : Prop :=
  ∀ (x y : Reg) (n : Rows) (s : State), (n.val = 0 ∨ s.i.toNat + n.val ≤ 4096) →
    Completes (exec (.drw x y n) s) fun t =>
      (∀ r c, t.fb.cell r c = true ↔
        ((s.fb.cell r c = true ∧ ¬ SpriteCovers (s.reg x) (s.reg y) (spriteBytes s n.val) r c) ∨
         (s.fb.cell r c = false ∧ SpriteCovers (s.reg x) (s.reg y) (spriteBytes s n.val) r c))) ∧
      ((∃ r c, SpriteCovers (s.reg x) (s.reg y) (spriteBytes s n.val) r c ∧ s.fb.cell r c = true) →
        (t.reg vf).toNat = 1) ∧
      ((¬ ∃ r c, SpriteCovers (s.reg x) (s.reg y) (spriteBytes s n.val) r c ∧ s.fb.cell r c = true) →
        (t.reg vf).toNat = 0) ∧
      t.dirty = true ∧ Frame (fun e => e = .reg vf ∨ e = .dirty ∨ ∃ r c, e = .cell r c) s t

/-! ## Timers and keys -/

/-- SKP and SKNP: the key that Vx names, or KEY_INDEX_OUT_OF_RANGE above 15 (D9; log 11). -/
def Obligations.KeySkipsOrFault : Prop :=
  ∀ (x : Reg) (s : State),
    (∀ k : Reg, (s.reg x).toNat = k.val →
      (Completes (exec (.skp x) s) fun t =>
        t.pc.toNat = (if s.keyDown k = true then (s.pc.toNat + 2) % 65536 else s.pc.toNat) ∧ Only [.pc] s t) ∧
      (Completes (exec (.sknp x) s) fun t =>
        t.pc.toNat = (if s.keyDown k = false then (s.pc.toNat + 2) % 65536 else s.pc.toNat) ∧ Only [.pc] s t)) ∧
    (15 < (s.reg x).toNat →
      Faults (.skp x) s (.keyIndexOutOfRange (s.reg x)) nothing ∧
      Faults (.sknp x) s (.keyIndexOutOfRange (s.reg x)) nothing)

/-- LD Vx, DT reads the delay timer; LD DT and LD ST set one timer from Vx, and SOUND_ACTIVE is not changed. -/
def Obligations.TimerTransfers : Prop :=
  ∀ (x : Reg) (s : State),
    ((encode (.ldVxDt x)).toNat = 0xF007 + x.val * 256 ∧
      Completes (exec (.ldVxDt x) s) fun t => t.reg x = s.dt ∧ Only [.reg x] s t) ∧
    ((encode (.ldDtVx x)).toNat = 0xF015 + x.val * 256 ∧
      Completes (exec (.ldDtVx x) s) fun t => t.dt = s.reg x ∧ Only [.dt] s t) ∧
    ((encode (.ldStVx x)).toNat = 0xF018 + x.val * 256 ∧
      Completes (exec (.ldStVx x) s) fun t => t.st = s.reg x ∧ Only [.st] s t)

/-- LD Vx, K: the wait is armed and nothing else changes; a key already down does not resolve it, and Vx is written only
by the key-down, which resolves it whatever state the key was in (D15; log 16). -/
def Obligations.WaitForKeyHaltsUntilKeyDown : Prop :=
  ∀ (x : Reg) (s : State), (encode (.ldVxK x)).toNat = 0xF00A + x.val * 256 ∧
    Completes (exec (.ldVxK x) s) fun t =>
      t.runState = .halted x ∧ Only [.runState] s t ∧
      ∀ k : Reg, ∃ u, setKeyDown k.val t = .ok u ∧
        u.runState = .running ∧ (u.reg x).toNat = k.val ∧ u.keyDown k = true ∧ Only [.runState, .reg x, .key k] t u

/-- R320, R322: both timers count down by 1 with floor 0; SOUND_ACTIVE is ST > 0 after that. -/
def Obligations.TimerTickCountsDown : Prop :=
  ∀ s : State,
    s.timerTick.dt.toNat = (if s.dt.toNat > 0 then s.dt.toNat - 1 else 0) ∧
    s.timerTick.st.toNat = (if s.st.toNat > 0 then s.st.toNat - 1 else 0) ∧
    (s.timerTick.soundActive = true ↔ s.timerTick.st.toNat > 0) ∧ Only [.dt, .st, .soundActive] s s.timerTick

/-! ## Unrecognized words -/

/-- The rows SYS and NOP change nothing, whatever bits they carry. -/
def Obligations.FallbackRowsChangeNothing : Prop :=
  ∀ (low : Addr12) (s : State), ∀ i ∈ [Instr.sys low, .nop5 low, .nop8 low, .nop9 low, .nopE low, .nopF low],
    exec i s = .next s

/-! ## Who writes what -/

/-- R22: an instruction that changes VF defines a flag or has VF for its destination register. -/
def Obligations.OnlyFlagOpcodesWriteVf : Prop :=
  ∀ (i : Instr) (s t : State), exec i s = .next t → t.reg vf ≠ s.reg vf →
    definesFlag i = true ∨ hasDestinationVf i = true

/-- I, PC, the stack, memory, the framebuffer and DIRTY change by the instructions the spec names and no other; no
instruction changes KEY, SOUND_ACTIVE or IPT. -/
def Obligations.EachElementHasItsWriters : Prop :=
  ∀ (i : Instr) (s t : State), exec i s = .next t →
    (t.i ≠ s.i → writesI i = true) ∧ (t.pc ≠ s.pc → writesPc i = true) ∧
    (t.sp ≠ s.sp ∨ t.stack ≠ s.stack → writesStack i = true) ∧
    ((∃ a, t.mem.read a ≠ s.mem.read a) → writesMem i = true) ∧
    (t.fb ≠ s.fb ∨ t.dirty ≠ s.dirty → writesDisplay i = true) ∧
    t.key = s.key ∧ t.soundActive = s.soundActive ∧ t.ipt = s.ipt

/-- From Running an instruction ends Running, or halts and is LD Vx, K, or faults with its own address and word in the
record. -/
def Obligations.RunStateLeavesRunningOnlySo : Prop :=
  ∀ (i : Instr) (s t : State), s.runState = .running → exec i s = .next t →
    t.runState = .running ∨ (∃ x, i = .ldVxK x ∧ t.runState = .halted x) ∨
    (∃ k, t.runState = .faulted ⟨k, s.pc - 2, some (encode i)⟩)

/-! ## The step and the cycle -/

/-- A step in Running runs the instruction that the two bytes at PC decode to, in the state `slotStart`, and goes on with
`slotEnd` of what it answers (log 1). -/
def Obligations.StepRunsTheDecodedInstruction : Prop :=
  ∀ (s : State) (i : Instr), s.runState = .running → 0 < s.ipt → s.pc.toNat + 1 < 4096 →
    decodeBytes [s.mem.read s.pc.toNat, s.mem.read (s.pc.toNat + 1)] = .ok (i, []) →
    ∃ t, exec i (slotStart s) = .next t ∧ step s = .next (slotEnd t)

/-- One instruction: the big-endian word at PC runs with PC advanced by 2; where a byte of it is out of bounds, the fetch
faults before the advance and changes nothing else (D2, D17; log 2). -/
def Obligations.FetchIsBigEndianOrFaults : Prop :=
  ∀ s : State,
    (s.pc.toNat + 1 < 4096 → ∀ w : Word,
      w.toNat = (s.mem.read s.pc.toNat).toNat * 256 + (s.mem.read (s.pc.toNat + 1)).toNat →
      instrStep s = exec (decodeWord w) { s with pc := s.pc + 2 }) ∧
    (4096 ≤ s.pc.toNat + 1 → Completes (instrStep s) fun t =>
      t.runState = .faulted ⟨.fetchOutOfBounds (max s.pc.toNat 4096), s.pc, none⟩ ∧ Only [.runState] s t)

/-- A word stored by LD [I] at the next instruction's address is what the next fetch runs (D12; log 14). -/
def Obligations.StoredWordIsFetchedNext : Prop :=
  ∀ (x : Reg) (s : State), 1 ≤ x.val → s.i = s.pc → s.i.toNat + x.val < 4096 →
    Completes (exec (.storeRegs x) s) fun t =>
      instrStep t = exec (decodeWord (wordOfBytes (s.reg 0) (s.reg 1))) (t.setPc (s.pc + 2))

/-- No step of a machine that has not faulted stops: it answers a next state. -/
def Obligations.OnlyFaultedStepsStop : Prop :=
  ∀ s : State, (s.isFaulted = false → ∃ t, step s = .next t) ∧
    (∀ r, s.runState = .faulted r → step s = .fault (.contractViolation r))

/-- The `Cycle` of R110 is its steps: from a boundary, some number of steps between 1 and IPT (1 if IPT is 0) gives what
`cycle` gives, in between the core is Running inside the batch, and a `Cycle` that ends Running took all its slots. -/
def Obligations.CycleIsItsSteps : Prop :=
  ∀ s : State, s.runState = .running → s.batchDone = 0 →
    ∃ k, 1 ≤ k ∧ k ≤ max 1 s.ipt ∧ Host.Core.run Sys2Proof.core k s = cycle s ∧
      (∀ j, 0 < j → j < k → ∃ u : State, Host.Core.run Sys2Proof.core j s = .next u ∧
        u.runState = .running ∧ u.batchDone = j) ∧
      ∃ t : State, cycle s = .next t ∧ t.batchDone = 0 ∧ (t.runState = .running → k = max 1 s.ipt)

/-- R322: SOUND_ACTIVE after a `Cycle` is ST > 0 when it began and ended Running, false when it began Running and did not,
and unchanged when it was skipped. -/
def Obligations.SoundActiveAfterCycle : Prop :=
  ∀ s t : State, cycle s = .next t →
    (s.runState = .running → t.runState = .running → (t.soundActive = true ↔ t.st.toNat > 0)) ∧
    (s.runState = .running → t.runState ≠ .running → t.soundActive = false) ∧
    (s.runState ≠ .running → t.soundActive = s.soundActive)

/-- In Halted no instruction executes and everything is frozen (R111, R337; that a step is then a `Cycle` that changes
nothing is the model's choice, log 1), and of all host calls only a key-down wakes the core; the register named by the
wait then holds the key, and nothing else but RUNSTATE and that key has changed (R331). -/
def Obligations.HaltedWaitsForKeyDown : Prop :=
  ∀ (s : State) (x : Reg), s.runState = .halted x →
    cycle s = .next s ∧ step s = .next s ∧
    ∀ (c : HostCall) (t : State), c.run s = .done t →
      t.runState = .halted x ∨
      ∃ k : Reg, c = .setKeyDown k.val ∧ t.runState = .running ∧ (t.reg x).toNat = k.val ∧
        Only [.runState, .reg x, .key k] s t

/-- With IPT = 0 a `Cycle` in Running clears the output flags and ticks the timers, and no instruction runs (R116). -/
def Obligations.CycleWithoutSlotsOnlyTicks : Prop :=
  ∀ s : State, s.runState = .running → s.ipt = 0 →
    Completes (cycle s) fun t =>
      t.dt.toNat = s.dt.toNat - 1 ∧ t.st.toNat = s.st.toNat - 1 ∧ t.dirty = false ∧
      (t.soundActive = true ↔ t.st.toNat > 0) ∧ Only [.dt, .st, .dirty, .soundActive] s t

/-! ## The host interface, construction and reset -/

/-- A fault is for good: no sequence of host calls leaves Faulted, and `Cycle` changes nothing (D2; log 2). -/
def Obligations.FaultedIsForGood : Prop :=
  ∀ (calls : List HostCall) (s : State) (r : FaultRecord), s.runState = .faulted r →
    (runCalls calls s).runState = .faulted r ∧ cycle s = .next s

/-- Key calls: KEY[k] takes the new state, a key-down resolves a wait and nothing else changes; above 15 the call is
rejected (D16; log 17). -/
def Obligations.KeyCallsSetKeys : Prop :=
  ∀ (s : State) (k : Nat),
    (∀ h : k < 16,
      (∃ t, setKeyUp k s = .ok t ∧ t.keyDown ⟨k, h⟩ = false ∧ Only [.key ⟨k, h⟩] s t) ∧
      (∃ t, setKeyDown k s = .ok t ∧ t.keyDown ⟨k, h⟩ = true ∧
        ((∀ x, s.runState ≠ .halted x) → Only [.key ⟨k, h⟩] s t) ∧
        (∀ x, s.runState = .halted x → (t.reg x).toNat = k ∧ t.runState = .running ∧
          Only [.key ⟨k, h⟩, .reg x, .runState] s t))) ∧
    (15 < k → setKeyUp k s = .error .hostKeyOutOfRange ∧ setKeyDown k s = .error .hostKeyOutOfRange)

/-- Loading a program: its bytes at 0x200 on, PC at 0x200, and nothing else (D24; log 21); one byte too many and the call
is rejected. -/
def Obligations.InsertProgramLoadsOrRejects : Prop :=
  ∀ (bytes : List Byte) (s : State),
    (bytes.length ≤ 3584 → ∃ t, insertProgram bytes s = .ok t ∧ t.pc.toNat = 0x200 ∧
      (∀ j b, bytes[j]? = some b → t.mem.read (0x200 + j) = b) ∧
      Frame (fun e => e = .pc ∨ bytesAt 0x200 bytes.length e) s t) ∧
    (3584 < bytes.length → insertProgram bytes s = .error .loadTooLarge)

/-- Construction with any FONT, IPT and draw source: the font at 0x000, zero in the rest of memory, IPT as given, and every
other element at its value of R40 (the spec's decisions D4, D5; log 7). Reset is the construction with the default font
(its bytes are log 5) and IPT = 10. -/
def Obligations.ConstructionState : Prop :=
  ∀ (font : Vector Byte 80) (ipt rng : Nat) (s : State), s = construct font ipt rng →
    (∀ a, s.mem.read a = (font.toList[a]?).getD 0) ∧ s.ipt = ipt ∧
    (∀ x, s.reg x = 0) ∧ s.i = 0 ∧ s.pc.toNat = 0x200 ∧ s.sp.val = 0 ∧ (∀ j : Fin 16, s.stack[j] = 0) ∧ s.dt = 0 ∧
    s.st = 0 ∧ (∀ r c, s.fb.cell r c = false) ∧ s.dirty = false ∧ s.soundActive = false ∧
    (∀ k, s.keyDown k = false) ∧ s.runState = .running ∧
    (font.toList = defaultFont → ipt = 10 → Only [.draws] s State.reset ∧ s.mem = State.reset.mem)

/-! ## Invariants -/

/-- The invariant holds right after reset. -/
def Obligations.ResetMeetsTheInvariant : Prop := State.reset.Inv

/-- Every step keeps the invariant: memory in canonical form, PC at most 0x10FE and so never wrapping (R26), every
occupied stack slot an address a call can push, the batch position inside the batch. -/
def Obligations.StepKeepsTheInvariant : Prop :=
  ∀ s t : State, s.Inv → step s = .next t → t.Inv

/-- Construction meets the invariant, and every host call between two `Cycle` calls keeps it and ends between two. -/
def Obligations.HostCallsKeepTheInvariant : Prop :=
  (∀ (font : Vector Byte 80) (ipt rng : Nat), (construct font ipt rng).Inv) ∧
  ∀ (c : HostCall) (s t : State), s.Inv → s.batchDone = 0 → c.run s = .done t → t.Inv ∧ t.batchDone = 0

/-- Canonical memories that read alike are equal. -/
def Obligations.CanonicalMemoriesThatReadAlikeAreEqual : Prop :=
  ∀ m n : Memory, m.wf → n.wf → (∀ a, m.read a = n.read a) → m = n

/-! ## What is not read -/

/-- Stale stack slots are never read (R29): states that differ only in slots at SP and above step alike. -/
def Obligations.StaleSlotsAreNeverRead : Prop :=
  ∀ s t : State, SameButStaleSlots s t → Related SameButStaleSlots (step s) (step t)

/-- No instruction reads DIRTY, SOUND_ACTIVE or ST (R34, R35, R31): with other values of them it answers the same next
state, but that an element it did not write keeps the other value. -/
def Obligations.OutputsAreNeverRead : Prop :=
  ∀ (i : Instr) (s : State) (d a : Bool) (b : Byte),
    Completes (exec i s) fun t =>
      Completes (exec i { s with dirty := d, soundActive := a, st := b }) fun u =>
        u = { t with dirty := u.dirty, soundActive := u.soundActive, st := u.st } ∧
        (u.dirty = t.dirty ∨ (u.dirty = d ∧ t.dirty = s.dirty)) ∧ u.soundActive = a ∧
        (u.st = t.st ∨ (u.st = b ∧ t.st = s.st))
end

