-- ==== Sys2Proof/Laws/Decode.lean ====
section
/-! SUPPORT. The fields of a packed word are what was packed: one lemma for each field and each layout of R80. -/

namespace Sys2Proof

theorem nib_toFin (r : Fin 16) : (nib r).toFin = r := rfl

theorem nib_toNat (r : Fin 16) : (nib r).toNat = r.val := rfl

theorem toFin_inj {b c : BitVec 4} (h : b.toFin = c.toFin) : b = c := BitVec.eq_of_toFin_eq h

/-! ## The layout family, x, y, n -/

theorem packXyn_toNat (f : BitVec 4) (x y : Reg) (n : BitVec 4) :
    (packXyn f x y n).toNat = f.toNat * 4096 + x.val * 256 + y.val * 16 + n.toNat := by
  have hx := x.isLt
  have hy := y.isLt
  have hn := n.isLt
  simp only [packXyn, BitVec.toNat_append, nib_toNat]
  rw [← Nat.shiftLeft_add_eq_or_of_lt hn, ← Nat.shiftLeft_add_eq_or_of_lt (i := 4) (by omega),
    ← Nat.shiftLeft_add_eq_or_of_lt (i := 4) (by omega)]
  simp only [Nat.shiftLeft_eq]
  omega

theorem family_packXyn (f : BitVec 4) (x y : Reg) (n : BitVec 4) : family (packXyn f x y n) = f.toFin := by
  have hx := x.isLt
  have hy := y.isLt
  have hn := n.isLt
  have hf := f.isLt
  apply Fin.ext
  simp only [family, BitVec.toFin_extractLsb', packXyn_toNat, Fin.val_ofNat, BitVec.val_toFin, Nat.shiftRight_eq_div_pow]
  omega

theorem fieldX_packXyn (f : BitVec 4) (x y : Reg) (n : BitVec 4) : fieldX (packXyn f x y n) = x := by
  have hx := x.isLt
  have hy := y.isLt
  have hn := n.isLt
  apply Fin.ext
  simp only [fieldX, BitVec.toFin_extractLsb', packXyn_toNat, Fin.val_ofNat, Nat.shiftRight_eq_div_pow]
  omega

theorem fieldY_packXyn (f : BitVec 4) (x y : Reg) (n : BitVec 4) : fieldY (packXyn f x y n) = y := by
  have hy := y.isLt
  have hn := n.isLt
  apply Fin.ext
  simp only [fieldY, BitVec.toFin_extractLsb', packXyn_toNat, Fin.val_ofNat, Nat.shiftRight_eq_div_pow]
  omega

theorem fieldN_packXyn (f : BitVec 4) (x y : Reg) (n : BitVec 4) : fieldN (packXyn f x y n) = n.toFin := by
  have hn := n.isLt
  apply Fin.ext
  simp only [fieldN, BitVec.toFin_extractLsb', packXyn_toNat, Fin.val_ofNat, BitVec.val_toFin,
    Nat.shiftRight_eq_div_pow]
  omega

/-! ## The layout family, x, kk -/

theorem packXkk_toNat (f : BitVec 4) (x : Reg) (kk : Byte) :
    (packXkk f x kk).toNat = f.toNat * 4096 + x.val * 256 + kk.toNat := by
  have hx := x.isLt
  have hk := kk.isLt
  simp only [packXkk, BitVec.toNat_append, nib_toNat]
  rw [← Nat.shiftLeft_add_eq_or_of_lt hk, ← Nat.shiftLeft_add_eq_or_of_lt (i := 4) (by omega)]
  simp only [Nat.shiftLeft_eq]
  omega

theorem family_packXkk (f : BitVec 4) (x : Reg) (kk : Byte) : family (packXkk f x kk) = f.toFin := by
  have hx := x.isLt
  have hk := kk.isLt
  have hf := f.isLt
  apply Fin.ext
  simp only [family, BitVec.toFin_extractLsb', packXkk_toNat, Fin.val_ofNat, BitVec.val_toFin, Nat.shiftRight_eq_div_pow]
  omega

theorem fieldX_packXkk (f : BitVec 4) (x : Reg) (kk : Byte) : fieldX (packXkk f x kk) = x := by
  have hx := x.isLt
  have hk := kk.isLt
  apply Fin.ext
  simp only [fieldX, BitVec.toFin_extractLsb', packXkk_toNat, Fin.val_ofNat, Nat.shiftRight_eq_div_pow]
  omega

theorem fieldKk_packXkk (f : BitVec 4) (x : Reg) (kk : Byte) : fieldKk (packXkk f x kk) = kk := by
  have hk := kk.isLt
  apply BitVec.eq_of_toNat_eq
  simp only [fieldKk, BitVec.extractLsb'_toNat, packXkk_toNat, Nat.shiftRight_eq_div_pow]
  omega

/-! ## The layout family, nnn -/

theorem packNnn_toNat (f : BitVec 4) (nnn : Addr12) : (packNnn f nnn).toNat = f.toNat * 4096 + nnn.toNat := by
  simp only [packNnn, BitVec.toNat_append]
  rw [← Nat.shiftLeft_add_eq_or_of_lt nnn.isLt, Nat.shiftLeft_eq]

theorem family_packNnn (f : BitVec 4) (nnn : Addr12) : family (packNnn f nnn) = f.toFin := by
  have hn := nnn.isLt
  have hf := f.isLt
  apply Fin.ext
  simp only [family, BitVec.toFin_extractLsb', packNnn_toNat, Fin.val_ofNat, BitVec.val_toFin, Nat.shiftRight_eq_div_pow]
  omega

theorem fieldNnn_packNnn (f : BitVec 4) (nnn : Addr12) : fieldNnn (packNnn f nnn) = nnn := by
  have hn := nnn.isLt
  apply BitVec.eq_of_toNat_eq
  simp only [fieldNnn, BitVec.extractLsb'_toNat, packNnn_toNat, Nat.shiftRight_eq_div_pow]
  omega

theorem fieldN_packNnn (f : BitVec 4) (nnn : Addr12) : fieldN (packNnn f nnn) = (lowNibble nnn).toFin := by
  apply Fin.ext
  simp only [fieldN, lowNibble, BitVec.toFin_extractLsb', packNnn_toNat, Fin.val_ofNat, Nat.shiftRight_eq_div_pow]
  omega

theorem fieldKk_packNnn (f : BitVec 4) (nnn : Addr12) : fieldKk (packNnn f nnn) = lowByte nnn := by
  apply BitVec.eq_of_toNat_eq
  simp only [fieldKk, lowByte, BitVec.extractLsb'_toNat, packNnn_toNat, Nat.shiftRight_eq_div_pow]
  omega

/-- A word is the concatenation of its two bytes, the first the high one (R55). -/
theorem wordOfBytes_bytesOfWord (w : Word) : wordOfBytes (w.extractLsb' 8 8) (w.extractLsb' 0 8) = w := by
  apply BitVec.eq_of_toNat_eq
  have hw := w.isLt
  simp only [wordOfBytes, BitVec.toNat_append]
  rw [← Nat.shiftLeft_add_eq_or_of_lt (BitVec.isLt _)]
  simp only [BitVec.extractLsb'_toNat, Nat.shiftLeft_eq, Nat.shiftRight_eq_div_pow]
  omega

end Sys2Proof
end

