-- ==== Sys2Proof/Laws/State.lean ====
section
/-! SUPPORT. One lemma for each field and each update of the state, true by rfl, so that no later proof unfolds a record
update; then the registers and the keys read through their accessors. -/

namespace Sys2Proof.Machine

variable (s : State)

/-! ## setReg -/

@[simp] theorem State.setReg_v (x : Reg) (b : Byte) : (s.setReg x b).v = s.v.set x b := rfl
@[simp] theorem State.setReg_i (x : Reg) (b : Byte) : (s.setReg x b).i = s.i := rfl
@[simp] theorem State.setReg_pc (x : Reg) (b : Byte) : (s.setReg x b).pc = s.pc := rfl
@[simp] theorem State.setReg_stack (x : Reg) (b : Byte) : (s.setReg x b).stack = s.stack := rfl
@[simp] theorem State.setReg_sp (x : Reg) (b : Byte) : (s.setReg x b).sp = s.sp := rfl
@[simp] theorem State.setReg_mem (x : Reg) (b : Byte) : (s.setReg x b).mem = s.mem := rfl
@[simp] theorem State.setReg_dt (x : Reg) (b : Byte) : (s.setReg x b).dt = s.dt := rfl
@[simp] theorem State.setReg_st (x : Reg) (b : Byte) : (s.setReg x b).st = s.st := rfl
@[simp] theorem State.setReg_fb (x : Reg) (b : Byte) : (s.setReg x b).fb = s.fb := rfl
@[simp] theorem State.setReg_dirty (x : Reg) (b : Byte) : (s.setReg x b).dirty = s.dirty := rfl
@[simp] theorem State.setReg_soundActive (x : Reg) (b : Byte) : (s.setReg x b).soundActive = s.soundActive := rfl
@[simp] theorem State.setReg_key (x : Reg) (b : Byte) : (s.setReg x b).key = s.key := rfl
@[simp] theorem State.setReg_runState (x : Reg) (b : Byte) : (s.setReg x b).runState = s.runState := rfl
@[simp] theorem State.setReg_ipt (x : Reg) (b : Byte) : (s.setReg x b).ipt = s.ipt := rfl
@[simp] theorem State.setReg_batchDone (x : Reg) (b : Byte) : (s.setReg x b).batchDone = s.batchDone := rfl
@[simp] theorem State.setReg_draws (x : Reg) (b : Byte) : (s.setReg x b).draws = s.draws := rfl
@[simp] theorem State.setReg_keyDown (x : Reg) (b : Byte) (y : Reg) : (s.setReg x b).keyDown y = s.keyDown y := rfl
@[simp] theorem State.setReg_effAddr (x : Reg) (b : Byte) (j : Nat) : (s.setReg x b).effAddr j = s.effAddr j := rfl

/-! ## setI -/

@[simp] theorem State.setI_v (w : Word) : (s.setI w).v = s.v := rfl
@[simp] theorem State.setI_i (w : Word) : (s.setI w).i = w := rfl
@[simp] theorem State.setI_pc (w : Word) : (s.setI w).pc = s.pc := rfl
@[simp] theorem State.setI_stack (w : Word) : (s.setI w).stack = s.stack := rfl
@[simp] theorem State.setI_sp (w : Word) : (s.setI w).sp = s.sp := rfl
@[simp] theorem State.setI_mem (w : Word) : (s.setI w).mem = s.mem := rfl
@[simp] theorem State.setI_dt (w : Word) : (s.setI w).dt = s.dt := rfl
@[simp] theorem State.setI_st (w : Word) : (s.setI w).st = s.st := rfl
@[simp] theorem State.setI_fb (w : Word) : (s.setI w).fb = s.fb := rfl
@[simp] theorem State.setI_dirty (w : Word) : (s.setI w).dirty = s.dirty := rfl
@[simp] theorem State.setI_soundActive (w : Word) : (s.setI w).soundActive = s.soundActive := rfl
@[simp] theorem State.setI_key (w : Word) : (s.setI w).key = s.key := rfl
@[simp] theorem State.setI_runState (w : Word) : (s.setI w).runState = s.runState := rfl
@[simp] theorem State.setI_ipt (w : Word) : (s.setI w).ipt = s.ipt := rfl
@[simp] theorem State.setI_batchDone (w : Word) : (s.setI w).batchDone = s.batchDone := rfl
@[simp] theorem State.setI_draws (w : Word) : (s.setI w).draws = s.draws := rfl
@[simp] theorem State.setI_reg (w : Word) (y : Reg) : (s.setI w).reg y = s.reg y := rfl
@[simp] theorem State.setI_keyDown (w : Word) (y : Reg) : (s.setI w).keyDown y = s.keyDown y := rfl

/-! ## setPc -/

@[simp] theorem State.setPc_v (w : Word) : (s.setPc w).v = s.v := rfl
@[simp] theorem State.setPc_i (w : Word) : (s.setPc w).i = s.i := rfl
@[simp] theorem State.setPc_pc (w : Word) : (s.setPc w).pc = w := rfl
@[simp] theorem State.setPc_stack (w : Word) : (s.setPc w).stack = s.stack := rfl
@[simp] theorem State.setPc_sp (w : Word) : (s.setPc w).sp = s.sp := rfl
@[simp] theorem State.setPc_mem (w : Word) : (s.setPc w).mem = s.mem := rfl
@[simp] theorem State.setPc_dt (w : Word) : (s.setPc w).dt = s.dt := rfl
@[simp] theorem State.setPc_st (w : Word) : (s.setPc w).st = s.st := rfl
@[simp] theorem State.setPc_fb (w : Word) : (s.setPc w).fb = s.fb := rfl
@[simp] theorem State.setPc_dirty (w : Word) : (s.setPc w).dirty = s.dirty := rfl
@[simp] theorem State.setPc_soundActive (w : Word) : (s.setPc w).soundActive = s.soundActive := rfl
@[simp] theorem State.setPc_key (w : Word) : (s.setPc w).key = s.key := rfl
@[simp] theorem State.setPc_runState (w : Word) : (s.setPc w).runState = s.runState := rfl
@[simp] theorem State.setPc_ipt (w : Word) : (s.setPc w).ipt = s.ipt := rfl
@[simp] theorem State.setPc_batchDone (w : Word) : (s.setPc w).batchDone = s.batchDone := rfl
@[simp] theorem State.setPc_draws (w : Word) : (s.setPc w).draws = s.draws := rfl
@[simp] theorem State.setPc_reg (w : Word) (y : Reg) : (s.setPc w).reg y = s.reg y := rfl
@[simp] theorem State.setPc_keyDown (w : Word) (y : Reg) : (s.setPc w).keyDown y = s.keyDown y := rfl
@[simp] theorem State.setPc_effAddr (w : Word) (j : Nat) : (s.setPc w).effAddr j = s.effAddr j := rfl

/-! ## setMem -/

@[simp] theorem State.setMem_v (m : Memory) : (s.setMem m).v = s.v := rfl
@[simp] theorem State.setMem_i (m : Memory) : (s.setMem m).i = s.i := rfl
@[simp] theorem State.setMem_pc (m : Memory) : (s.setMem m).pc = s.pc := rfl
@[simp] theorem State.setMem_stack (m : Memory) : (s.setMem m).stack = s.stack := rfl
@[simp] theorem State.setMem_sp (m : Memory) : (s.setMem m).sp = s.sp := rfl
@[simp] theorem State.setMem_mem (m : Memory) : (s.setMem m).mem = m := rfl
@[simp] theorem State.setMem_dt (m : Memory) : (s.setMem m).dt = s.dt := rfl
@[simp] theorem State.setMem_st (m : Memory) : (s.setMem m).st = s.st := rfl
@[simp] theorem State.setMem_fb (m : Memory) : (s.setMem m).fb = s.fb := rfl
@[simp] theorem State.setMem_dirty (m : Memory) : (s.setMem m).dirty = s.dirty := rfl
@[simp] theorem State.setMem_soundActive (m : Memory) : (s.setMem m).soundActive = s.soundActive := rfl
@[simp] theorem State.setMem_key (m : Memory) : (s.setMem m).key = s.key := rfl
@[simp] theorem State.setMem_runState (m : Memory) : (s.setMem m).runState = s.runState := rfl
@[simp] theorem State.setMem_ipt (m : Memory) : (s.setMem m).ipt = s.ipt := rfl
@[simp] theorem State.setMem_batchDone (m : Memory) : (s.setMem m).batchDone = s.batchDone := rfl
@[simp] theorem State.setMem_draws (m : Memory) : (s.setMem m).draws = s.draws := rfl
@[simp] theorem State.setMem_reg (m : Memory) (y : Reg) : (s.setMem m).reg y = s.reg y := rfl
@[simp] theorem State.setMem_keyDown (m : Memory) (y : Reg) : (s.setMem m).keyDown y = s.keyDown y := rfl
@[simp] theorem State.setMem_effAddr (m : Memory) (j : Nat) : (s.setMem m).effAddr j = s.effAddr j := rfl

/-! ## setDt -/

@[simp] theorem State.setDt_v (b : Byte) : (s.setDt b).v = s.v := rfl
@[simp] theorem State.setDt_i (b : Byte) : (s.setDt b).i = s.i := rfl
@[simp] theorem State.setDt_pc (b : Byte) : (s.setDt b).pc = s.pc := rfl
@[simp] theorem State.setDt_stack (b : Byte) : (s.setDt b).stack = s.stack := rfl
@[simp] theorem State.setDt_sp (b : Byte) : (s.setDt b).sp = s.sp := rfl
@[simp] theorem State.setDt_mem (b : Byte) : (s.setDt b).mem = s.mem := rfl
@[simp] theorem State.setDt_dt (b : Byte) : (s.setDt b).dt = b := rfl
@[simp] theorem State.setDt_st (b : Byte) : (s.setDt b).st = s.st := rfl
@[simp] theorem State.setDt_fb (b : Byte) : (s.setDt b).fb = s.fb := rfl
@[simp] theorem State.setDt_dirty (b : Byte) : (s.setDt b).dirty = s.dirty := rfl
@[simp] theorem State.setDt_soundActive (b : Byte) : (s.setDt b).soundActive = s.soundActive := rfl
@[simp] theorem State.setDt_key (b : Byte) : (s.setDt b).key = s.key := rfl
@[simp] theorem State.setDt_runState (b : Byte) : (s.setDt b).runState = s.runState := rfl
@[simp] theorem State.setDt_ipt (b : Byte) : (s.setDt b).ipt = s.ipt := rfl
@[simp] theorem State.setDt_batchDone (b : Byte) : (s.setDt b).batchDone = s.batchDone := rfl
@[simp] theorem State.setDt_draws (b : Byte) : (s.setDt b).draws = s.draws := rfl
@[simp] theorem State.setDt_reg (b : Byte) (y : Reg) : (s.setDt b).reg y = s.reg y := rfl
@[simp] theorem State.setDt_keyDown (b : Byte) (y : Reg) : (s.setDt b).keyDown y = s.keyDown y := rfl
@[simp] theorem State.setDt_effAddr (b : Byte) (j : Nat) : (s.setDt b).effAddr j = s.effAddr j := rfl

/-! ## setSt -/

@[simp] theorem State.setSt_v (b : Byte) : (s.setSt b).v = s.v := rfl
@[simp] theorem State.setSt_i (b : Byte) : (s.setSt b).i = s.i := rfl
@[simp] theorem State.setSt_pc (b : Byte) : (s.setSt b).pc = s.pc := rfl
@[simp] theorem State.setSt_stack (b : Byte) : (s.setSt b).stack = s.stack := rfl
@[simp] theorem State.setSt_sp (b : Byte) : (s.setSt b).sp = s.sp := rfl
@[simp] theorem State.setSt_mem (b : Byte) : (s.setSt b).mem = s.mem := rfl
@[simp] theorem State.setSt_dt (b : Byte) : (s.setSt b).dt = s.dt := rfl
@[simp] theorem State.setSt_st (b : Byte) : (s.setSt b).st = b := rfl
@[simp] theorem State.setSt_fb (b : Byte) : (s.setSt b).fb = s.fb := rfl
@[simp] theorem State.setSt_dirty (b : Byte) : (s.setSt b).dirty = s.dirty := rfl
@[simp] theorem State.setSt_soundActive (b : Byte) : (s.setSt b).soundActive = s.soundActive := rfl
@[simp] theorem State.setSt_key (b : Byte) : (s.setSt b).key = s.key := rfl
@[simp] theorem State.setSt_runState (b : Byte) : (s.setSt b).runState = s.runState := rfl
@[simp] theorem State.setSt_ipt (b : Byte) : (s.setSt b).ipt = s.ipt := rfl
@[simp] theorem State.setSt_batchDone (b : Byte) : (s.setSt b).batchDone = s.batchDone := rfl
@[simp] theorem State.setSt_draws (b : Byte) : (s.setSt b).draws = s.draws := rfl
@[simp] theorem State.setSt_reg (b : Byte) (y : Reg) : (s.setSt b).reg y = s.reg y := rfl
@[simp] theorem State.setSt_keyDown (b : Byte) (y : Reg) : (s.setSt b).keyDown y = s.keyDown y := rfl
@[simp] theorem State.setSt_effAddr (b : Byte) (j : Nat) : (s.setSt b).effAddr j = s.effAddr j := rfl

/-! ## setFb -/

@[simp] theorem State.setFb_v (g : Framebuffer) : (s.setFb g).v = s.v := rfl
@[simp] theorem State.setFb_i (g : Framebuffer) : (s.setFb g).i = s.i := rfl
@[simp] theorem State.setFb_pc (g : Framebuffer) : (s.setFb g).pc = s.pc := rfl
@[simp] theorem State.setFb_stack (g : Framebuffer) : (s.setFb g).stack = s.stack := rfl
@[simp] theorem State.setFb_sp (g : Framebuffer) : (s.setFb g).sp = s.sp := rfl
@[simp] theorem State.setFb_mem (g : Framebuffer) : (s.setFb g).mem = s.mem := rfl
@[simp] theorem State.setFb_dt (g : Framebuffer) : (s.setFb g).dt = s.dt := rfl
@[simp] theorem State.setFb_st (g : Framebuffer) : (s.setFb g).st = s.st := rfl
@[simp] theorem State.setFb_fb (g : Framebuffer) : (s.setFb g).fb = g := rfl
@[simp] theorem State.setFb_dirty (g : Framebuffer) : (s.setFb g).dirty = true := rfl
@[simp] theorem State.setFb_soundActive (g : Framebuffer) : (s.setFb g).soundActive = s.soundActive := rfl
@[simp] theorem State.setFb_key (g : Framebuffer) : (s.setFb g).key = s.key := rfl
@[simp] theorem State.setFb_runState (g : Framebuffer) : (s.setFb g).runState = s.runState := rfl
@[simp] theorem State.setFb_ipt (g : Framebuffer) : (s.setFb g).ipt = s.ipt := rfl
@[simp] theorem State.setFb_batchDone (g : Framebuffer) : (s.setFb g).batchDone = s.batchDone := rfl
@[simp] theorem State.setFb_draws (g : Framebuffer) : (s.setFb g).draws = s.draws := rfl
@[simp] theorem State.setFb_reg (g : Framebuffer) (y : Reg) : (s.setFb g).reg y = s.reg y := rfl
@[simp] theorem State.setFb_keyDown (g : Framebuffer) (y : Reg) : (s.setFb g).keyDown y = s.keyDown y := rfl
@[simp] theorem State.setFb_effAddr (g : Framebuffer) (j : Nat) : (s.setFb g).effAddr j = s.effAddr j := rfl

/-! ## clearOutputFlags -/

@[simp] theorem State.clearOutputFlags_v : s.clearOutputFlags.v = s.v := rfl
@[simp] theorem State.clearOutputFlags_i : s.clearOutputFlags.i = s.i := rfl
@[simp] theorem State.clearOutputFlags_pc : s.clearOutputFlags.pc = s.pc := rfl
@[simp] theorem State.clearOutputFlags_stack : s.clearOutputFlags.stack = s.stack := rfl
@[simp] theorem State.clearOutputFlags_sp : s.clearOutputFlags.sp = s.sp := rfl
@[simp] theorem State.clearOutputFlags_mem : s.clearOutputFlags.mem = s.mem := rfl
@[simp] theorem State.clearOutputFlags_dt : s.clearOutputFlags.dt = s.dt := rfl
@[simp] theorem State.clearOutputFlags_st : s.clearOutputFlags.st = s.st := rfl
@[simp] theorem State.clearOutputFlags_fb : s.clearOutputFlags.fb = s.fb := rfl
@[simp] theorem State.clearOutputFlags_dirty : s.clearOutputFlags.dirty = false := rfl
@[simp] theorem State.clearOutputFlags_soundActive : s.clearOutputFlags.soundActive = false := rfl
@[simp] theorem State.clearOutputFlags_key : s.clearOutputFlags.key = s.key := rfl
@[simp] theorem State.clearOutputFlags_runState : s.clearOutputFlags.runState = s.runState := rfl
@[simp] theorem State.clearOutputFlags_ipt : s.clearOutputFlags.ipt = s.ipt := rfl
@[simp] theorem State.clearOutputFlags_batchDone : s.clearOutputFlags.batchDone = s.batchDone := rfl
@[simp] theorem State.clearOutputFlags_draws : s.clearOutputFlags.draws = s.draws := rfl
@[simp] theorem State.clearOutputFlags_reg (y : Reg) : s.clearOutputFlags.reg y = s.reg y := rfl
@[simp] theorem State.clearOutputFlags_keyDown (y : Reg) : s.clearOutputFlags.keyDown y = s.keyDown y := rfl
@[simp] theorem State.clearOutputFlags_effAddr (j : Nat) : s.clearOutputFlags.effAddr j = s.effAddr j := rfl

/-! ## setKey -/

@[simp] theorem State.setKey_v (k : Reg) (b : Bool) : (s.setKey k b).v = s.v := rfl
@[simp] theorem State.setKey_i (k : Reg) (b : Bool) : (s.setKey k b).i = s.i := rfl
@[simp] theorem State.setKey_pc (k : Reg) (b : Bool) : (s.setKey k b).pc = s.pc := rfl
@[simp] theorem State.setKey_stack (k : Reg) (b : Bool) : (s.setKey k b).stack = s.stack := rfl
@[simp] theorem State.setKey_sp (k : Reg) (b : Bool) : (s.setKey k b).sp = s.sp := rfl
@[simp] theorem State.setKey_mem (k : Reg) (b : Bool) : (s.setKey k b).mem = s.mem := rfl
@[simp] theorem State.setKey_dt (k : Reg) (b : Bool) : (s.setKey k b).dt = s.dt := rfl
@[simp] theorem State.setKey_st (k : Reg) (b : Bool) : (s.setKey k b).st = s.st := rfl
@[simp] theorem State.setKey_fb (k : Reg) (b : Bool) : (s.setKey k b).fb = s.fb := rfl
@[simp] theorem State.setKey_dirty (k : Reg) (b : Bool) : (s.setKey k b).dirty = s.dirty := rfl
@[simp] theorem State.setKey_soundActive (k : Reg) (b : Bool) : (s.setKey k b).soundActive = s.soundActive := rfl
@[simp] theorem State.setKey_key (k : Reg) (b : Bool) : (s.setKey k b).key = s.key.set k b := rfl
@[simp] theorem State.setKey_runState (k : Reg) (b : Bool) : (s.setKey k b).runState = s.runState := rfl
@[simp] theorem State.setKey_ipt (k : Reg) (b : Bool) : (s.setKey k b).ipt = s.ipt := rfl
@[simp] theorem State.setKey_batchDone (k : Reg) (b : Bool) : (s.setKey k b).batchDone = s.batchDone := rfl
@[simp] theorem State.setKey_draws (k : Reg) (b : Bool) : (s.setKey k b).draws = s.draws := rfl
@[simp] theorem State.setKey_reg (k : Reg) (b : Bool) (y : Reg) : (s.setKey k b).reg y = s.reg y := rfl
@[simp] theorem State.setKey_effAddr (k : Reg) (b : Bool) (j : Nat) : (s.setKey k b).effAddr j = s.effAddr j := rfl

/-! ## setRunState -/

@[simp] theorem State.setRunState_v (r : RunState) : (s.setRunState r).v = s.v := rfl
@[simp] theorem State.setRunState_i (r : RunState) : (s.setRunState r).i = s.i := rfl
@[simp] theorem State.setRunState_pc (r : RunState) : (s.setRunState r).pc = s.pc := rfl
@[simp] theorem State.setRunState_stack (r : RunState) : (s.setRunState r).stack = s.stack := rfl
@[simp] theorem State.setRunState_sp (r : RunState) : (s.setRunState r).sp = s.sp := rfl
@[simp] theorem State.setRunState_mem (r : RunState) : (s.setRunState r).mem = s.mem := rfl
@[simp] theorem State.setRunState_dt (r : RunState) : (s.setRunState r).dt = s.dt := rfl
@[simp] theorem State.setRunState_st (r : RunState) : (s.setRunState r).st = s.st := rfl
@[simp] theorem State.setRunState_fb (r : RunState) : (s.setRunState r).fb = s.fb := rfl
@[simp] theorem State.setRunState_dirty (r : RunState) : (s.setRunState r).dirty = s.dirty := rfl
@[simp] theorem State.setRunState_soundActive (r : RunState) : (s.setRunState r).soundActive = s.soundActive := rfl
@[simp] theorem State.setRunState_key (r : RunState) : (s.setRunState r).key = s.key := rfl
@[simp] theorem State.setRunState_runState (r : RunState) : (s.setRunState r).runState = r := rfl
@[simp] theorem State.setRunState_ipt (r : RunState) : (s.setRunState r).ipt = s.ipt := rfl
@[simp] theorem State.setRunState_batchDone (r : RunState) : (s.setRunState r).batchDone = s.batchDone := rfl
@[simp] theorem State.setRunState_draws (r : RunState) : (s.setRunState r).draws = s.draws := rfl
@[simp] theorem State.setRunState_reg (r : RunState) (y : Reg) : (s.setRunState r).reg y = s.reg y := rfl
@[simp] theorem State.setRunState_keyDown (r : RunState) (y : Reg) : (s.setRunState r).keyDown y = s.keyDown y := rfl
@[simp] theorem State.setRunState_effAddr (r : RunState) (j : Nat) : (s.setRunState r).effAddr j = s.effAddr j := rfl

/-! ## setBatchDone -/

@[simp] theorem State.setBatchDone_v (n : Nat) : (s.setBatchDone n).v = s.v := rfl
@[simp] theorem State.setBatchDone_i (n : Nat) : (s.setBatchDone n).i = s.i := rfl
@[simp] theorem State.setBatchDone_pc (n : Nat) : (s.setBatchDone n).pc = s.pc := rfl
@[simp] theorem State.setBatchDone_stack (n : Nat) : (s.setBatchDone n).stack = s.stack := rfl
@[simp] theorem State.setBatchDone_sp (n : Nat) : (s.setBatchDone n).sp = s.sp := rfl
@[simp] theorem State.setBatchDone_mem (n : Nat) : (s.setBatchDone n).mem = s.mem := rfl
@[simp] theorem State.setBatchDone_dt (n : Nat) : (s.setBatchDone n).dt = s.dt := rfl
@[simp] theorem State.setBatchDone_st (n : Nat) : (s.setBatchDone n).st = s.st := rfl
@[simp] theorem State.setBatchDone_fb (n : Nat) : (s.setBatchDone n).fb = s.fb := rfl
@[simp] theorem State.setBatchDone_dirty (n : Nat) : (s.setBatchDone n).dirty = s.dirty := rfl
@[simp] theorem State.setBatchDone_soundActive (n : Nat) : (s.setBatchDone n).soundActive = s.soundActive := rfl
@[simp] theorem State.setBatchDone_key (n : Nat) : (s.setBatchDone n).key = s.key := rfl
@[simp] theorem State.setBatchDone_runState (n : Nat) : (s.setBatchDone n).runState = s.runState := rfl
@[simp] theorem State.setBatchDone_ipt (n : Nat) : (s.setBatchDone n).ipt = s.ipt := rfl
@[simp] theorem State.setBatchDone_batchDone (n : Nat) : (s.setBatchDone n).batchDone = n := rfl
@[simp] theorem State.setBatchDone_draws (n : Nat) : (s.setBatchDone n).draws = s.draws := rfl
@[simp] theorem State.setBatchDone_reg (n : Nat) (y : Reg) : (s.setBatchDone n).reg y = s.reg y := rfl
@[simp] theorem State.setBatchDone_keyDown (n : Nat) (y : Reg) : (s.setBatchDone n).keyDown y = s.keyDown y := rfl
@[simp] theorem State.setBatchDone_effAddr (n : Nat) (j : Nat) : (s.setBatchDone n).effAddr j = s.effAddr j := rfl

/-! ## nextDraw -/

@[simp] theorem State.nextDraw_v : s.nextDraw.v = s.v := rfl
@[simp] theorem State.nextDraw_i : s.nextDraw.i = s.i := rfl
@[simp] theorem State.nextDraw_pc : s.nextDraw.pc = s.pc := rfl
@[simp] theorem State.nextDraw_stack : s.nextDraw.stack = s.stack := rfl
@[simp] theorem State.nextDraw_sp : s.nextDraw.sp = s.sp := rfl
@[simp] theorem State.nextDraw_mem : s.nextDraw.mem = s.mem := rfl
@[simp] theorem State.nextDraw_dt : s.nextDraw.dt = s.dt := rfl
@[simp] theorem State.nextDraw_st : s.nextDraw.st = s.st := rfl
@[simp] theorem State.nextDraw_fb : s.nextDraw.fb = s.fb := rfl
@[simp] theorem State.nextDraw_dirty : s.nextDraw.dirty = s.dirty := rfl
@[simp] theorem State.nextDraw_soundActive : s.nextDraw.soundActive = s.soundActive := rfl
@[simp] theorem State.nextDraw_key : s.nextDraw.key = s.key := rfl
@[simp] theorem State.nextDraw_runState : s.nextDraw.runState = s.runState := rfl
@[simp] theorem State.nextDraw_ipt : s.nextDraw.ipt = s.ipt := rfl
@[simp] theorem State.nextDraw_batchDone : s.nextDraw.batchDone = s.batchDone := rfl
@[simp] theorem State.nextDraw_draws : s.nextDraw.draws = s.draws + 1 := rfl
@[simp] theorem State.nextDraw_reg (y : Reg) : s.nextDraw.reg y = s.reg y := rfl
@[simp] theorem State.nextDraw_keyDown (y : Reg) : s.nextDraw.keyDown y = s.keyDown y := rfl
@[simp] theorem State.nextDraw_effAddr (j : Nat) : s.nextDraw.effAddr j = s.effAddr j := rfl

/-! ## loadRegs -/

@[simp] theorem State.loadRegs_v (bs : List Byte) : (s.loadRegs bs).v = loadFrom s.v 0 bs := rfl
@[simp] theorem State.loadRegs_i (bs : List Byte) : (s.loadRegs bs).i = s.i := rfl
@[simp] theorem State.loadRegs_pc (bs : List Byte) : (s.loadRegs bs).pc = s.pc := rfl
@[simp] theorem State.loadRegs_stack (bs : List Byte) : (s.loadRegs bs).stack = s.stack := rfl
@[simp] theorem State.loadRegs_sp (bs : List Byte) : (s.loadRegs bs).sp = s.sp := rfl
@[simp] theorem State.loadRegs_mem (bs : List Byte) : (s.loadRegs bs).mem = s.mem := rfl
@[simp] theorem State.loadRegs_dt (bs : List Byte) : (s.loadRegs bs).dt = s.dt := rfl
@[simp] theorem State.loadRegs_st (bs : List Byte) : (s.loadRegs bs).st = s.st := rfl
@[simp] theorem State.loadRegs_fb (bs : List Byte) : (s.loadRegs bs).fb = s.fb := rfl
@[simp] theorem State.loadRegs_dirty (bs : List Byte) : (s.loadRegs bs).dirty = s.dirty := rfl
@[simp] theorem State.loadRegs_soundActive (bs : List Byte) : (s.loadRegs bs).soundActive = s.soundActive := rfl
@[simp] theorem State.loadRegs_key (bs : List Byte) : (s.loadRegs bs).key = s.key := rfl
@[simp] theorem State.loadRegs_runState (bs : List Byte) : (s.loadRegs bs).runState = s.runState := rfl
@[simp] theorem State.loadRegs_ipt (bs : List Byte) : (s.loadRegs bs).ipt = s.ipt := rfl
@[simp] theorem State.loadRegs_batchDone (bs : List Byte) : (s.loadRegs bs).batchDone = s.batchDone := rfl
@[simp] theorem State.loadRegs_draws (bs : List Byte) : (s.loadRegs bs).draws = s.draws := rfl
@[simp] theorem State.loadRegs_keyDown (bs : List Byte) (y : Reg) : (s.loadRegs bs).keyDown y = s.keyDown y := rfl
@[simp] theorem State.loadRegs_effAddr (bs : List Byte) (j : Nat) : (s.loadRegs bs).effAddr j = s.effAddr j := rfl

/-! ## forgetRegs -/

@[simp] theorem State.forgetRegs_i (n : Nat) : (s.forgetRegs n).i = s.i := rfl
@[simp] theorem State.forgetRegs_pc (n : Nat) : (s.forgetRegs n).pc = s.pc := rfl
@[simp] theorem State.forgetRegs_stack (n : Nat) : (s.forgetRegs n).stack = s.stack := rfl
@[simp] theorem State.forgetRegs_sp (n : Nat) : (s.forgetRegs n).sp = s.sp := rfl
@[simp] theorem State.forgetRegs_mem (n : Nat) : (s.forgetRegs n).mem = s.mem := rfl
@[simp] theorem State.forgetRegs_dt (n : Nat) : (s.forgetRegs n).dt = s.dt := rfl
@[simp] theorem State.forgetRegs_st (n : Nat) : (s.forgetRegs n).st = s.st := rfl
@[simp] theorem State.forgetRegs_fb (n : Nat) : (s.forgetRegs n).fb = s.fb := rfl
@[simp] theorem State.forgetRegs_dirty (n : Nat) : (s.forgetRegs n).dirty = s.dirty := rfl
@[simp] theorem State.forgetRegs_soundActive (n : Nat) : (s.forgetRegs n).soundActive = s.soundActive := rfl
@[simp] theorem State.forgetRegs_key (n : Nat) : (s.forgetRegs n).key = s.key := rfl
@[simp] theorem State.forgetRegs_ipt (n : Nat) : (s.forgetRegs n).ipt = s.ipt := rfl
@[simp] theorem State.forgetRegs_batchDone (n : Nat) : (s.forgetRegs n).batchDone = s.batchDone := rfl
@[simp] theorem State.forgetRegs_runState (n : Nat) : (s.forgetRegs n).runState = s.runState := rfl
@[simp] theorem State.forgetRegs_draws (n : Nat) : (s.forgetRegs n).draws = s.draws := rfl
@[simp] theorem State.forgetRegs_keyDown (n : Nat) (y : Reg) : (s.forgetRegs n).keyDown y = s.keyDown y := rfl
@[simp] theorem State.forgetRegs_effAddr (n j : Nat) : (s.forgetRegs n).effAddr j = s.effAddr j := rfl

/-! ## setRegFlag -/

@[simp] theorem State.setRegFlag_v (x : Reg) (b : Byte) (c : Bool) : (s.setRegFlag x b c).v = (s.v.set x b).set vf (flagByte c) := rfl
@[simp] theorem State.setRegFlag_i (x : Reg) (b : Byte) (c : Bool) : (s.setRegFlag x b c).i = s.i := rfl
@[simp] theorem State.setRegFlag_pc (x : Reg) (b : Byte) (c : Bool) : (s.setRegFlag x b c).pc = s.pc := rfl
@[simp] theorem State.setRegFlag_stack (x : Reg) (b : Byte) (c : Bool) : (s.setRegFlag x b c).stack = s.stack := rfl
@[simp] theorem State.setRegFlag_sp (x : Reg) (b : Byte) (c : Bool) : (s.setRegFlag x b c).sp = s.sp := rfl
@[simp] theorem State.setRegFlag_mem (x : Reg) (b : Byte) (c : Bool) : (s.setRegFlag x b c).mem = s.mem := rfl
@[simp] theorem State.setRegFlag_dt (x : Reg) (b : Byte) (c : Bool) : (s.setRegFlag x b c).dt = s.dt := rfl
@[simp] theorem State.setRegFlag_st (x : Reg) (b : Byte) (c : Bool) : (s.setRegFlag x b c).st = s.st := rfl
@[simp] theorem State.setRegFlag_fb (x : Reg) (b : Byte) (c : Bool) : (s.setRegFlag x b c).fb = s.fb := rfl
@[simp] theorem State.setRegFlag_dirty (x : Reg) (b : Byte) (c : Bool) : (s.setRegFlag x b c).dirty = s.dirty := rfl
@[simp] theorem State.setRegFlag_soundActive (x : Reg) (b : Byte) (c : Bool) : (s.setRegFlag x b c).soundActive = s.soundActive := rfl
@[simp] theorem State.setRegFlag_key (x : Reg) (b : Byte) (c : Bool) : (s.setRegFlag x b c).key = s.key := rfl
@[simp] theorem State.setRegFlag_runState (x : Reg) (b : Byte) (c : Bool) : (s.setRegFlag x b c).runState = s.runState := rfl
@[simp] theorem State.setRegFlag_ipt (x : Reg) (b : Byte) (c : Bool) : (s.setRegFlag x b c).ipt = s.ipt := rfl
@[simp] theorem State.setRegFlag_batchDone (x : Reg) (b : Byte) (c : Bool) : (s.setRegFlag x b c).batchDone = s.batchDone := rfl
@[simp] theorem State.setRegFlag_draws (x : Reg) (b : Byte) (c : Bool) : (s.setRegFlag x b c).draws = s.draws := rfl
@[simp] theorem State.setRegFlag_keyDown (x : Reg) (b : Byte) (c : Bool) (y : Reg) : (s.setRegFlag x b c).keyDown y = s.keyDown y := rfl
@[simp] theorem State.setRegFlag_effAddr (x : Reg) (b : Byte) (c : Bool) (j : Nat) : (s.setRegFlag x b c).effAddr j = s.effAddr j := rfl

/-! ## timerTick -/

@[simp] theorem State.timerTick_v : s.timerTick.v = s.v := rfl
@[simp] theorem State.timerTick_i : s.timerTick.i = s.i := rfl
@[simp] theorem State.timerTick_pc : s.timerTick.pc = s.pc := rfl
@[simp] theorem State.timerTick_stack : s.timerTick.stack = s.stack := rfl
@[simp] theorem State.timerTick_sp : s.timerTick.sp = s.sp := rfl
@[simp] theorem State.timerTick_mem : s.timerTick.mem = s.mem := rfl
@[simp] theorem State.timerTick_dt : s.timerTick.dt = countDown s.dt := rfl
@[simp] theorem State.timerTick_st : s.timerTick.st = countDown s.st := rfl
@[simp] theorem State.timerTick_fb : s.timerTick.fb = s.fb := rfl
@[simp] theorem State.timerTick_dirty : s.timerTick.dirty = s.dirty := rfl
@[simp] theorem State.timerTick_soundActive : s.timerTick.soundActive = decide ((countDown s.st).toNat > 0) := rfl
@[simp] theorem State.timerTick_key : s.timerTick.key = s.key := rfl
@[simp] theorem State.timerTick_runState : s.timerTick.runState = s.runState := rfl
@[simp] theorem State.timerTick_ipt : s.timerTick.ipt = s.ipt := rfl
@[simp] theorem State.timerTick_batchDone : s.timerTick.batchDone = s.batchDone := rfl
@[simp] theorem State.timerTick_draws : s.timerTick.draws = s.draws := rfl
@[simp] theorem State.timerTick_reg (y : Reg) : s.timerTick.reg y = s.reg y := rfl
@[simp] theorem State.timerTick_keyDown (y : Reg) : s.timerTick.keyDown y = s.keyDown y := rfl
@[simp] theorem State.timerTick_effAddr (j : Nat) : s.timerTick.effAddr j = s.effAddr j := rfl

/-! ## takeFault -/

@[simp] theorem State.takeFault_v (k : FaultKind) (a : Word) (w : Option Word) : (s.takeFault k a w).v = s.v := rfl
@[simp] theorem State.takeFault_i (k : FaultKind) (a : Word) (w : Option Word) : (s.takeFault k a w).i = s.i := rfl
@[simp] theorem State.takeFault_pc (k : FaultKind) (a : Word) (w : Option Word) : (s.takeFault k a w).pc = s.pc := rfl
@[simp] theorem State.takeFault_stack (k : FaultKind) (a : Word) (w : Option Word) : (s.takeFault k a w).stack = s.stack := rfl
@[simp] theorem State.takeFault_sp (k : FaultKind) (a : Word) (w : Option Word) : (s.takeFault k a w).sp = s.sp := rfl
@[simp] theorem State.takeFault_mem (k : FaultKind) (a : Word) (w : Option Word) : (s.takeFault k a w).mem = s.mem := rfl
@[simp] theorem State.takeFault_dt (k : FaultKind) (a : Word) (w : Option Word) : (s.takeFault k a w).dt = s.dt := rfl
@[simp] theorem State.takeFault_st (k : FaultKind) (a : Word) (w : Option Word) : (s.takeFault k a w).st = s.st := rfl
@[simp] theorem State.takeFault_fb (k : FaultKind) (a : Word) (w : Option Word) : (s.takeFault k a w).fb = s.fb := rfl
@[simp] theorem State.takeFault_dirty (k : FaultKind) (a : Word) (w : Option Word) : (s.takeFault k a w).dirty = s.dirty := rfl
@[simp] theorem State.takeFault_soundActive (k : FaultKind) (a : Word) (w : Option Word) : (s.takeFault k a w).soundActive = s.soundActive := rfl
@[simp] theorem State.takeFault_key (k : FaultKind) (a : Word) (w : Option Word) : (s.takeFault k a w).key = s.key := rfl
@[simp] theorem State.takeFault_runState (k : FaultKind) (a : Word) (w : Option Word) : (s.takeFault k a w).runState = .faulted ⟨k, a, w⟩ := rfl
@[simp] theorem State.takeFault_ipt (k : FaultKind) (a : Word) (w : Option Word) : (s.takeFault k a w).ipt = s.ipt := rfl
@[simp] theorem State.takeFault_batchDone (k : FaultKind) (a : Word) (w : Option Word) : (s.takeFault k a w).batchDone = s.batchDone := rfl
@[simp] theorem State.takeFault_draws (k : FaultKind) (a : Word) (w : Option Word) : (s.takeFault k a w).draws = s.draws := rfl
@[simp] theorem State.takeFault_reg (k : FaultKind) (a : Word) (w : Option Word) (y : Reg) : (s.takeFault k a w).reg y = s.reg y := rfl
@[simp] theorem State.takeFault_keyDown (k : FaultKind) (a : Word) (w : Option Word) (y : Reg) : (s.takeFault k a w).keyDown y = s.keyDown y := rfl
@[simp] theorem State.takeFault_effAddr (k : FaultKind) (a : Word) (w : Option Word) (j : Nat) : (s.takeFault k a w).effAddr j = s.effAddr j := rfl

/-! ## instrFault -/

@[simp] theorem State.instrFault_v (k : FaultKind) (j : Instr) : (s.instrFault k j).v = s.v := rfl
@[simp] theorem State.instrFault_i (k : FaultKind) (j : Instr) : (s.instrFault k j).i = s.i := rfl
@[simp] theorem State.instrFault_pc (k : FaultKind) (j : Instr) : (s.instrFault k j).pc = s.pc := rfl
@[simp] theorem State.instrFault_stack (k : FaultKind) (j : Instr) : (s.instrFault k j).stack = s.stack := rfl
@[simp] theorem State.instrFault_sp (k : FaultKind) (j : Instr) : (s.instrFault k j).sp = s.sp := rfl
@[simp] theorem State.instrFault_mem (k : FaultKind) (j : Instr) : (s.instrFault k j).mem = s.mem := rfl
@[simp] theorem State.instrFault_dt (k : FaultKind) (j : Instr) : (s.instrFault k j).dt = s.dt := rfl
@[simp] theorem State.instrFault_st (k : FaultKind) (j : Instr) : (s.instrFault k j).st = s.st := rfl
@[simp] theorem State.instrFault_fb (k : FaultKind) (j : Instr) : (s.instrFault k j).fb = s.fb := rfl
@[simp] theorem State.instrFault_dirty (k : FaultKind) (j : Instr) : (s.instrFault k j).dirty = s.dirty := rfl
@[simp] theorem State.instrFault_soundActive (k : FaultKind) (j : Instr) : (s.instrFault k j).soundActive = s.soundActive := rfl
@[simp] theorem State.instrFault_key (k : FaultKind) (j : Instr) : (s.instrFault k j).key = s.key := rfl
@[simp] theorem State.instrFault_runState (k : FaultKind) (j : Instr) : (s.instrFault k j).runState = .faulted ⟨k, s.pc - 2, some (encode j)⟩ := rfl
@[simp] theorem State.instrFault_ipt (k : FaultKind) (j : Instr) : (s.instrFault k j).ipt = s.ipt := rfl
@[simp] theorem State.instrFault_batchDone (k : FaultKind) (j : Instr) : (s.instrFault k j).batchDone = s.batchDone := rfl
@[simp] theorem State.instrFault_draws (k : FaultKind) (j : Instr) : (s.instrFault k j).draws = s.draws := rfl
@[simp] theorem State.instrFault_reg (k : FaultKind) (j : Instr) (y : Reg) : (s.instrFault k j).reg y = s.reg y := rfl
@[simp] theorem State.instrFault_keyDown (k : FaultKind) (j : Instr) (y : Reg) : (s.instrFault k j).keyDown y = s.keyDown y := rfl
@[simp] theorem State.instrFault_effAddr (k : FaultKind) (q : Instr) (j : Nat) : (s.instrFault k q).effAddr j = s.effAddr j := rfl

/-! ## Registers and keys through their accessors -/

theorem State.reg_eq_getElem (x : Reg) : s.reg x = s.v[x.val] := rfl

theorem State.keyDown_eq_getElem (k : Reg) : s.keyDown k = s.key[k.val] := rfl

/-- A register reads what was last written to it (R21). -/
theorem State.setReg_reg (x y : Reg) (b : Byte) : (s.setReg x b).reg y = if y = x then b else s.reg y := by
  simp only [State.reg_eq_getElem, State.setReg_v, Vector.getElem_set, Fin.ext_iff, eq_comm (a := x.val)]

@[simp] theorem State.setReg_reg_self (x : Reg) (b : Byte) : (s.setReg x b).reg x = b := by
  simp [State.setReg_reg]

theorem State.setReg_reg_ne {x y : Reg} (h : y ≠ x) (b : Byte) : (s.setReg x b).reg y = s.reg y := by
  simp [State.setReg_reg, h]

/-- VF is written last: it holds the flag even when it is the destination (R23). -/
theorem State.setRegFlag_reg (x y : Reg) (b : Byte) (c : Bool) :
    (s.setRegFlag x b c).reg y = if y = vf then flagByte c else if y = x then b else s.reg y := by
  simp only [State.setRegFlag, State.setReg_reg]

@[simp] theorem State.setRegFlag_reg_vf (x : Reg) (b : Byte) (c : Bool) : (s.setRegFlag x b c).reg vf = flagByte c := by
  simp [State.setRegFlag_reg]

/-- A key reads what was last written to it (R36). -/
theorem State.setKey_keyDown (k j : Reg) (b : Bool) : (s.setKey k b).keyDown j = if j = k then b else s.keyDown j := by
  simp only [State.keyDown_eq_getElem, State.setKey_key, Vector.getElem_set, Fin.ext_iff, eq_comm (a := k.val)]

@[simp] theorem State.setKey_keyDown_self (k : Reg) (b : Bool) : (s.setKey k b).keyDown k = b := by
  simp [State.setKey_keyDown]

/-! ## The skip -/

/-- A skip moves PC by 2 or leaves the state alone (R130). -/
theorem State.skipIf_eq (c : Bool) : s.skipIf c = s.setPc (if c then s.pc + 2 else s.pc) := by
  cases c <;> rfl

@[simp] theorem State.skipIf_v (c : Bool) : (s.skipIf c).v = s.v := by cases c <;> rfl
@[simp] theorem State.skipIf_i (c : Bool) : (s.skipIf c).i = s.i := by cases c <;> rfl
@[simp] theorem State.skipIf_pc (c : Bool) : (s.skipIf c).pc = if c then s.pc + 2 else s.pc := by cases c <;> rfl
@[simp] theorem State.skipIf_stack (c : Bool) : (s.skipIf c).stack = s.stack := by cases c <;> rfl
@[simp] theorem State.skipIf_sp (c : Bool) : (s.skipIf c).sp = s.sp := by cases c <;> rfl
@[simp] theorem State.skipIf_mem (c : Bool) : (s.skipIf c).mem = s.mem := by cases c <;> rfl
@[simp] theorem State.skipIf_dt (c : Bool) : (s.skipIf c).dt = s.dt := by cases c <;> rfl
@[simp] theorem State.skipIf_st (c : Bool) : (s.skipIf c).st = s.st := by cases c <;> rfl
@[simp] theorem State.skipIf_fb (c : Bool) : (s.skipIf c).fb = s.fb := by cases c <;> rfl
@[simp] theorem State.skipIf_dirty (c : Bool) : (s.skipIf c).dirty = s.dirty := by cases c <;> rfl
@[simp] theorem State.skipIf_soundActive (c : Bool) : (s.skipIf c).soundActive = s.soundActive := by cases c <;> rfl
@[simp] theorem State.skipIf_key (c : Bool) : (s.skipIf c).key = s.key := by cases c <;> rfl
@[simp] theorem State.skipIf_runState (c : Bool) : (s.skipIf c).runState = s.runState := by cases c <;> rfl
@[simp] theorem State.skipIf_ipt (c : Bool) : (s.skipIf c).ipt = s.ipt := by cases c <;> rfl
@[simp] theorem State.skipIf_batchDone (c : Bool) : (s.skipIf c).batchDone = s.batchDone := by cases c <;> rfl
@[simp] theorem State.skipIf_draws (c : Bool) : (s.skipIf c).draws = s.draws := by cases c <;> rfl
@[simp] theorem State.skipIf_reg (c : Bool) (y : Reg) : (s.skipIf c).reg y = s.reg y := by cases c <;> rfl
@[simp] theorem State.skipIf_keyDown (c : Bool) (y : Reg) : (s.skipIf c).keyDown y = s.keyDown y := by cases c <;> rfl

end Sys2Proof.Machine
end

