-- ==== Sys2Proof/Laws/Display.lean ====
section
/-! SUPPORT. The framebuffer read cell by cell. -/

namespace Sys2Proof.Machine

/-- Toggling a cell negates it and leaves every other cell alone (R232). -/
theorem Framebuffer.cell_toggle (fb : Framebuffer) (r r' : Fin 32) (c c' : Fin 64) :
    (fb.toggle r c).cell r' c' = if r' = r ∧ c' = c then !fb.cell r c else fb.cell r' c' := by
  simp only [Framebuffer.cell, Framebuffer.toggle, Fin.getElem_fin, Vector.getElem_set, Fin.ext_iff]
  by_cases hr : r.val = r'.val
  · by_cases hc : c.val = c'.val
    · simp [hr, hc]
    · simp [hr, hc, eq_comm (a := c'.val)]
  · simp [hr, eq_comm (a := r'.val)]

@[simp] theorem Framebuffer.cell_clear (r : Fin 32) (c : Fin 64) : Framebuffer.clear.cell r c = false := by
  simp [Framebuffer.cell, Framebuffer.clear]

/-- Two framebuffers with the same cells are the same. -/
theorem Framebuffer.ext_cell {fb fb' : Framebuffer} (h : ∀ r c, fb.cell r c = fb'.cell r c) : fb = fb' :=
  Vector.ext fun r hr => Vector.ext fun c hc => h ⟨r, hr⟩ ⟨c, hc⟩

@[simp] theorem plot_fb (d : Drawing) (r : Fin 32) (c : Fin 64) : (plot d r c).1 = d.1.toggle r c := rfl

@[simp] theorem plot_collision (d : Drawing) (r : Fin 32) (c : Fin 64) : (plot d r c).2 = (d.2 || d.1.cell r c) := rfl

end Sys2Proof.Machine
end

