-- ==== Sys2Proof/Laws/Memory.lean ====
section
/-! SUPPORT. The laws of memory: what each operation reads as afterwards, and that each keeps the canonical form. The
reading laws hold of every list of cells, canonical or not. -/

namespace Sys2Proof.Machine

variable (m : Memory)

/-! ## One byte -/

theorem Memory.read_erase (a b : Nat) : (m.erase a).read b = if b = a then Memory.unlisted a else m.read b := by
  unfold Memory.erase
  induction m with
  | nil => simp +contextual [Memory.read]
  | cons c rest ih =>
    obtain ⟨d, u⟩ := c
    by_cases hd : d = a
    · subst hd
      simp only [List.filter_cons, bne_self_eq_false, Bool.false_eq_true, if_false, ih, Memory.read]
      split <;> rfl
    · simp only [List.filter_cons, bne_iff_ne, ne_eq, hd, not_false_eq_true, if_true, Memory.read, ih]
      by_cases hb : b = d
      · simp [hb, hd]
      · simp [hb]

theorem Memory.mem_erase {a : Nat} {c : Host.Cell} : c ∈ m.erase a ↔ c ∈ m ∧ c.1 ≠ a := by
  simp [Memory.erase]

theorem Memory.read_insert (a : Nat) (v : Byte) (b : Nat) (h : ∀ c ∈ m, c.1 ≠ a) :
    (Memory.insert (a, v) m).read b = if b = a then v else m.read b := by
  induction m with
  | nil => simp [Memory.insert, Memory.read]
  | cons c rest ih =>
    have hc : c.1 ≠ a := h c (by simp)
    have ih := ih fun d hd => h d (by simp [hd])
    obtain ⟨d, u⟩ := c
    unfold Memory.insert
    split
    · simp [Memory.read]
    · simp only [Memory.read, ih]
      by_cases hb : b = d
      · simp_all
      · simp [hb]

/-- A read after a write: the value written at its address, the old value everywhere else (R51, R52, R64). -/
theorem Memory.read_write (a : Nat) (v : Byte) (b : Nat) : (m.write a v).read b = if b = a then v else m.read b := by
  unfold Memory.write
  split
  · next h => rw [Memory.read_erase, h]
  · rw [Memory.read_insert _ _ _ _ fun c hc => ((Memory.mem_erase m).1 hc).2, Memory.read_erase]
    split <;> simp_all

@[simp] theorem Memory.read_write_self (a : Nat) (v : Byte) : (m.write a v).read a = v := by
  simp [Memory.read_write]

theorem Memory.read_write_ne {a b : Nat} (h : b ≠ a) (v : Byte) : (m.write a v).read b = m.read b := by
  simp [Memory.read_write, h]

/-! ## Bytes at rising addresses -/

/-- What a run of stores leaves: its bytes in their range, the old bytes outside. -/
theorem Memory.read_writeAll (vs : List Byte) (a b : Nat) :
    (m.writeAll a vs).read b = if a ≤ b then (vs[b - a]?).getD (m.read b) else m.read b := by
  induction vs generalizing m a with
  | nil => simp [Memory.writeAll]
  | cons v vs ih =>
    rw [Memory.writeAll, ih, Memory.read_write]
    rcases Nat.lt_trichotomy b a with h | h | h
    · simp [show ¬ a + 1 ≤ b by omega, show ¬ a ≤ b by omega, show b ≠ a by omega]
    · subst h
      simp
    · have : b - a = (b - (a + 1)) + 1 := by omega
      simp [show a + 1 ≤ b by omega, show a ≤ b by omega, show b ≠ a by omega, this]

theorem Memory.read_writeAll_outside {vs : List Byte} {a b : Nat} (h : b < a ∨ a + vs.length ≤ b) :
    (m.writeAll a vs).read b = m.read b := by
  rw [Memory.read_writeAll]
  split
  · rw [List.getElem?_eq_none (by omega)]
    rfl
  · rfl

theorem Memory.read_writeAll_inside {vs : List Byte} {a j : Nat} (h : j < vs.length) :
    (m.writeAll a vs).read (a + j) = vs[j] := by
  simp [Memory.read_writeAll, h]

/-- Forgetting changes nothing outside the bytes forgotten (R309). -/
theorem Memory.read_forget_outside {n d a b : Nat} (h : b < a ∨ a + n ≤ b) : (m.forget d a n).read b = m.read b := by
  induction n generalizing m a with
  | zero => rfl
  | succ n ih => rw [Memory.forget, ih _ (by omega), Memory.read_write_ne _ (by omega)]

/-- The bytes forgotten hold the free values of the draw (R309). -/
theorem Memory.read_forget_inside {n d a b : Nat} (h : a ≤ b) (h' : b < a + n) :
    (m.forget d a n).read b = Config.unspecifiedByte d b := by
  induction n generalizing m a with
  | zero => omega
  | succ n ih =>
    rw [Memory.forget]
    rcases Nat.eq_or_lt_of_le h with rfl | hlt
    · rw [Memory.read_forget_outside _ (by omega), Memory.read_write_self]
    · exact ih _ (by omega) (by omega)

/-! ## The bounds (R51, R52, R53, R311) -/

theorem Memory.readRange_ok {a n : Nat} (h : a + n ≤ 4096) :
    m.readRange a n = .ok ((List.range n).map fun j => m.read (a + j)) := by
  induction n generalizing a with
  | zero => rfl
  | succ n ih =>
    rw [Memory.readRange, if_neg (by simp; omega), ih (by omega), List.range_succ_eq_map]
    simp [Function.comp_def, Nat.add_assoc, Nat.add_comm 1]

theorem Memory.readRange_error {a n : Nat} (hn : 0 < n) (h : 4096 < a + n) : m.readRange a n = .error (max a 4096) := by
  induction n generalizing a with
  | zero => omega
  | succ n ih =>
    rw [Memory.readRange]
    by_cases ha : 4096 ≤ a
    · simp [ha]
    · rw [if_neg (by simpa using ha), ih (by omega) (by omega)]
      simp only [Except.error.injEq]
      omega

theorem Memory.writeRange_ok {a : Nat} {vs : List Byte} (h : a + vs.length ≤ 4096) :
    m.writeRange a vs = .ok (m.writeAll a vs) := by
  induction vs generalizing m a with
  | nil => rfl
  | cons v vs ih =>
    rw [List.length_cons] at h
    rw [Memory.writeRange, if_neg (by simp; omega), ih _ (by omega), Memory.writeAll]

theorem Memory.writeRange_error {a : Nat} {vs : List Byte} (hn : 0 < vs.length) (h : 4096 < a + vs.length) :
    m.writeRange a vs = .error (max a 4096) := by
  induction vs generalizing m a with
  | nil => simp at hn
  | cons v vs ih =>
    rw [List.length_cons] at h
    rw [Memory.writeRange]
    by_cases ha : 4096 ≤ a
    · simp [ha]
    · rw [if_neg (by simpa using ha), ih _ (by omega) (by omega)]
      simp only [Except.error.injEq]
      omega

/-! ## The canonical form -/

theorem Memory.wf_nil : Memory.wf [] := by simp [Memory.wf]

theorem Memory.wf_erase {m : Memory} (h : m.wf) (a : Nat) : (m.erase a).wf :=
  ⟨h.1.filter _, fun c hc => h.2 c ((Memory.mem_erase m).1 hc).1⟩

theorem Memory.mem_insert {c d : Host.Cell} : d ∈ Memory.insert c m ↔ d = c ∨ d ∈ m := by
  induction m with
  | nil => simp [Memory.insert]
  | cons e rest ih =>
    unfold Memory.insert
    split
    · simp
    · simp only [List.mem_cons, ih]
      tauto

theorem Memory.pairwise_insert {m : Memory} {c : Host.Cell} (h : m.Pairwise (fun c d => c.1 < d.1))
    (hc : ∀ d ∈ m, d.1 ≠ c.1) : (Memory.insert c m).Pairwise (fun c d => c.1 < d.1) := by
  induction m with
  | nil => simp [Memory.insert]
  | cons e rest ih =>
    have hr := List.pairwise_cons.1 h
    unfold Memory.insert
    split
    · next hlt =>
      refine List.pairwise_cons.2 ⟨fun d hd => ?_, h⟩
      rcases List.mem_cons.1 hd with rfl | hd
      · exact hlt
      · exact lt_trans hlt (hr.1 d hd)
    · next hlt =>
      refine List.pairwise_cons.2 ⟨fun d hd => ?_, ih hr.2 fun d hd => hc d (by simp [hd])⟩
      rcases (Memory.mem_insert _).1 hd with rfl | hd
      · have := hc e (by simp)
        omega
      · exact hr.1 d hd

/-- A store below 4096 keeps the canonical form. -/
theorem Memory.wf_write {m : Memory} (h : m.wf) {a : Nat} (ha : a < 4096) (v : Byte) : (m.write a v).wf := by
  have he := Memory.wf_erase h a
  unfold Memory.write
  split
  · exact he
  · next hv =>
    refine ⟨Memory.pairwise_insert he.1 fun d hd => ((Memory.mem_erase m).1 hd).2, fun d hd => ?_⟩
    rcases (Memory.mem_insert _).1 hd with rfl | hd
    · exact ⟨ha, hv⟩
    · exact he.2 d hd

theorem Memory.wf_writeAll {m : Memory} (h : m.wf) {a : Nat} {vs : List Byte} (ha : a + vs.length ≤ 4096) :
    (m.writeAll a vs).wf := by
  induction vs generalizing m a with
  | nil => exact h
  | cons v vs ih =>
    rw [List.length_cons] at ha
    exact ih (Memory.wf_write h (by omega) v) (by omega)

theorem Memory.wf_forget {m : Memory} (h : m.wf) {d a n : Nat} (ha : a + n ≤ 4096) : (m.forget d a n).wf := by
  induction n generalizing m a with
  | zero => exact h
  | succ n ih => exact ih (Memory.wf_write h (by omega) _) (by omega)

/-- A bulk load keeps the canonical form (R70). -/
theorem Memory.wf_loadBulk {m m' : Memory} (h : m.wf) {a : Nat} {vs : List Byte} (hl : m.loadBulk a vs = some m') :
    m'.wf := by
  unfold Memory.loadBulk at hl
  split at hl
  · cases hl
  · cases hl
    exact Memory.wf_writeAll h (by simp_all)

end Sys2Proof.Machine
end

