-- ==== Sys2Proof/Laws/Ops.lean ====
section
/-! SUPPORT. For each shared operation, once, everything it can do. -/

namespace Sys2Proof.Machine

variable (s : State)

/-! ## The stack -/

/-- A push with a free slot (R60). -/
theorem State.push_of_lt (w : Word) (h : s.sp.val < 16) :
    s.push w = some { s with stack := s.stack.set s.sp.val w, sp := ⟨s.sp.val + 1, by omega⟩ } := by
  simp [State.push, h]

/-- A push on a full stack (R60, R302). -/
theorem State.push_full (w : Word) (h : s.sp = 16) : s.push w = none := by
  simp [State.push, h]

/-- A pop of an occupied slot (R61). -/
theorem State.pop_of_pos (h : 0 < s.sp.val) :
    s.pop = some (s.stack[s.sp.val - 1], { s with sp := ⟨s.sp.val - 1, by omega⟩ }) := by
  simp [State.pop, show s.sp.val ≠ 0 by omega]

/-- A pop of an empty stack (R61, R303). -/
theorem State.pop_empty (h : s.sp = 0) : s.pop = none := by
  simp [State.pop, h]

/-! ## Transfers -/

/-- A store in bounds writes its bytes and nothing else (R52, R63). -/
theorem State.storeBytes_ok (i : Instr) {bs : List Byte} (h : s.effAddr 0 + bs.length ≤ 4096) :
    s.storeBytes i bs = s.setMem (s.mem.writeAll (s.effAddr 0) bs) := by
  simp [State.storeBytes, Memory.writeRange_ok _ h]

/-- A store out of bounds: the bytes below 4096 are unspecified, and the fault names the first address out of bounds
(R306, R309, R311). -/
theorem State.storeBytes_fault (i : Instr) {bs : List Byte} (hn : 0 < bs.length) (h : 4096 < s.effAddr 0 + bs.length) :
    s.storeBytes i bs =
      ((s.setMem (s.mem.forget s.draws (s.effAddr 0) (max (s.effAddr 0) 4096 - s.effAddr 0))).nextDraw).instrFault
        (.writeOutOfBounds (max (s.effAddr 0) 4096)) i := by
  simp [State.storeBytes, Memory.writeRange_error _ hn h]

/-- A read in bounds goes on with the bytes (R51, R63). -/
theorem State.withBytes_ok (i : Instr) {n : Nat} (k : List Byte → State) (h : s.effAddr 0 + n ≤ 4096) :
    s.withBytes i n k = k ((List.range n).map fun j => s.mem.read (s.effAddr 0 + j)) := by
  simp [State.withBytes, Memory.readRange_ok _ h]

/-- A read out of bounds changes nothing but RUNSTATE (R305, R309, R311). -/
theorem State.withBytes_fault (i : Instr) {n : Nat} (k : List Byte → State) (hn : 0 < n) (h : 4096 < s.effAddr 0 + n) :
    s.withBytes i n k = s.instrFault (.readOutOfBounds (max (s.effAddr 0) 4096)) i := by
  simp [State.withBytes, Memory.readRange_error _ hn h]

/-- A load in bounds writes its bytes to the registers and nothing else (R205). -/
theorem State.loadBytes_ok (i : Instr) {n : Nat} (h : s.effAddr 0 + n ≤ 4096) :
    s.loadBytes i n = s.loadRegs ((List.range n).map fun j => s.mem.read (s.effAddr 0 + j)) := by
  simp [State.loadBytes, Memory.readRange_ok _ h]

/-- A load out of bounds: the registers of the bytes below 4096 are unspecified, and the fault names the first address out
of bounds (R205, R305, R309, R311). -/
theorem State.loadBytes_fault (i : Instr) {n : Nat} (hn : 0 < n) (h : 4096 < s.effAddr 0 + n) :
    s.loadBytes i n = ((s.forgetRegs (max (s.effAddr 0) 4096 - s.effAddr 0)).nextDraw).instrFault
      (.readOutOfBounds (max (s.effAddr 0) 4096)) i := by
  simp [State.loadBytes, Memory.readRange_error _ hn h]

theorem State.withKey_ok (i : Instr) {b : Byte} (k : Reg → State) (h : b.toNat < 16) : s.withKey i b k = k ⟨b.toNat, h⟩ := by
  simp [State.withKey, h]

theorem State.withKey_fault (i : Instr) {b : Byte} (k : Reg → State) (h : 15 < b.toNat) :
    s.withKey i b k = s.instrFault (.keyIndexOutOfRange b) i := by
  simp [State.withKey, show ¬ b.toNat < 16 by omega]

/-! ## What the operations leave alone -/

@[simp] theorem State.storeBytes_v (i : Instr) (bs : List Byte) : (s.storeBytes i bs).v = s.v := by
  unfold State.storeBytes; split <;> rfl

@[simp] theorem State.storeBytes_i (i : Instr) (bs : List Byte) : (s.storeBytes i bs).i = s.i := by
  unfold State.storeBytes; split <;> rfl

@[simp] theorem State.storeBytes_pc (i : Instr) (bs : List Byte) : (s.storeBytes i bs).pc = s.pc := by
  unfold State.storeBytes; split <;> rfl

@[simp] theorem State.storeBytes_stack (i : Instr) (bs : List Byte) : (s.storeBytes i bs).stack = s.stack := by
  unfold State.storeBytes; split <;> rfl

@[simp] theorem State.storeBytes_sp (i : Instr) (bs : List Byte) : (s.storeBytes i bs).sp = s.sp := by
  unfold State.storeBytes; split <;> rfl

@[simp] theorem State.storeBytes_dt (i : Instr) (bs : List Byte) : (s.storeBytes i bs).dt = s.dt := by
  unfold State.storeBytes; split <;> rfl

@[simp] theorem State.storeBytes_st (i : Instr) (bs : List Byte) : (s.storeBytes i bs).st = s.st := by
  unfold State.storeBytes; split <;> rfl

@[simp] theorem State.storeBytes_fb (i : Instr) (bs : List Byte) : (s.storeBytes i bs).fb = s.fb := by
  unfold State.storeBytes; split <;> rfl

@[simp] theorem State.storeBytes_dirty (i : Instr) (bs : List Byte) : (s.storeBytes i bs).dirty = s.dirty := by
  unfold State.storeBytes; split <;> rfl

@[simp] theorem State.storeBytes_soundActive (i : Instr) (bs : List Byte) : (s.storeBytes i bs).soundActive = s.soundActive := by
  unfold State.storeBytes; split <;> rfl

@[simp] theorem State.storeBytes_key (i : Instr) (bs : List Byte) : (s.storeBytes i bs).key = s.key := by
  unfold State.storeBytes; split <;> rfl

@[simp] theorem State.storeBytes_ipt (i : Instr) (bs : List Byte) : (s.storeBytes i bs).ipt = s.ipt := by
  unfold State.storeBytes; split <;> rfl

@[simp] theorem State.storeBytes_batchDone (i : Instr) (bs : List Byte) : (s.storeBytes i bs).batchDone = s.batchDone := by
  unfold State.storeBytes; split <;> rfl

@[simp] theorem State.loadBytes_i (i : Instr) (n : Nat) : (s.loadBytes i n).i = s.i := by
  unfold State.loadBytes; split <;> rfl

@[simp] theorem State.loadBytes_pc (i : Instr) (n : Nat) : (s.loadBytes i n).pc = s.pc := by
  unfold State.loadBytes; split <;> rfl

@[simp] theorem State.loadBytes_stack (i : Instr) (n : Nat) : (s.loadBytes i n).stack = s.stack := by
  unfold State.loadBytes; split <;> rfl

@[simp] theorem State.loadBytes_sp (i : Instr) (n : Nat) : (s.loadBytes i n).sp = s.sp := by
  unfold State.loadBytes; split <;> rfl

@[simp] theorem State.loadBytes_mem (i : Instr) (n : Nat) : (s.loadBytes i n).mem = s.mem := by
  unfold State.loadBytes; split <;> rfl

@[simp] theorem State.loadBytes_dt (i : Instr) (n : Nat) : (s.loadBytes i n).dt = s.dt := by
  unfold State.loadBytes; split <;> rfl

@[simp] theorem State.loadBytes_st (i : Instr) (n : Nat) : (s.loadBytes i n).st = s.st := by
  unfold State.loadBytes; split <;> rfl

@[simp] theorem State.loadBytes_fb (i : Instr) (n : Nat) : (s.loadBytes i n).fb = s.fb := by
  unfold State.loadBytes; split <;> rfl

@[simp] theorem State.loadBytes_dirty (i : Instr) (n : Nat) : (s.loadBytes i n).dirty = s.dirty := by
  unfold State.loadBytes; split <;> rfl

@[simp] theorem State.loadBytes_soundActive (i : Instr) (n : Nat) : (s.loadBytes i n).soundActive = s.soundActive := by
  unfold State.loadBytes; split <;> rfl

@[simp] theorem State.loadBytes_key (i : Instr) (n : Nat) : (s.loadBytes i n).key = s.key := by
  unfold State.loadBytes; split <;> rfl

@[simp] theorem State.loadBytes_ipt (i : Instr) (n : Nat) : (s.loadBytes i n).ipt = s.ipt := by
  unfold State.loadBytes; split <;> rfl

@[simp] theorem State.loadBytes_batchDone (i : Instr) (n : Nat) : (s.loadBytes i n).batchDone = s.batchDone := by
  unfold State.loadBytes; split <;> rfl

/-- A push changes the slot and SP, and only these (R60). -/
theorem State.push_cases {w : Word} {t : State} (h : s.push w = some t) :
    ∃ hl : s.sp.val < 16, t = { s with stack := s.stack.set s.sp.val w, sp := ⟨s.sp.val + 1, by omega⟩ } := by
  unfold State.push at h
  split at h
  · next hl => exact ⟨hl, (Option.some.inj h).symm⟩
  · cases h

/-- A pop answers the top slot and changes SP alone (R61). -/
theorem State.pop_cases {w : Word} {t : State} (h : s.pop = some (w, t)) :
    ∃ hl : 0 < s.sp.val, w = s.stack[s.sp.val - 1] ∧ t = { s with sp := ⟨s.sp.val - 1, by omega⟩ } := by
  unfold State.pop at h
  split at h
  · cases h
  · next hl =>
    cases h
    exact ⟨by omega, rfl, rfl⟩

/-- What reading bytes leads to: the bytes in bounds and the continuation, or a fault that changes RUNSTATE alone
(R305, R309). -/
theorem State.withBytes_cases (i : Instr) (n : Nat) (k : List Byte → State) :
    (∃ bs, bs.length = n ∧ s.withBytes i n k = k bs) ∨ ∃ bad, s.withBytes i n k = s.instrFault (.readOutOfBounds bad) i := by
  rcases Nat.eq_zero_or_pos n with rfl | hn
  · exact .inl ⟨[], rfl, rfl⟩
  · rcases Nat.lt_or_ge 4096 (s.effAddr 0 + n) with h | h
    · exact .inr ⟨_, s.withBytes_fault i k hn h⟩
    · exact .inl ⟨_, by simp, s.withBytes_ok i k h⟩

/-- What a load leads to: its bytes in the registers, or some registers forgotten, a draw taken and a fault (R205, R305,
R309). -/
theorem State.loadBytes_cases (i : Instr) {n : Nat} (hn : 0 < n) :
    (s.effAddr 0 + n ≤ 4096 ∧
      s.loadBytes i n = s.loadRegs ((List.range n).map fun j => s.mem.read (s.effAddr 0 + j))) ∨
    (4096 < s.effAddr 0 + n ∧ s.loadBytes i n =
      ((s.forgetRegs (max (s.effAddr 0) 4096 - s.effAddr 0)).nextDraw).instrFault
        (.readOutOfBounds (max (s.effAddr 0) 4096)) i) := by
  rcases Nat.lt_or_ge 4096 (s.effAddr 0 + n) with h | h
  · exact .inr ⟨h, s.loadBytes_fault i hn h⟩
  · exact .inl ⟨h, s.loadBytes_ok i h⟩

/-- What naming a key leads to: the key, or a fault that changes RUNSTATE alone (R307). -/
theorem State.withKey_cases (i : Instr) (b : Byte) (k : Reg → State) :
    (∃ j, s.withKey i b k = k j) ∨ s.withKey i b k = s.instrFault (.keyIndexOutOfRange b) i := by
  unfold State.withKey
  split
  · exact .inl ⟨_, rfl⟩
  · exact .inr rfl

/-- What a store leads to: its bytes in memory, or some bytes of memory forgotten, a draw taken and a fault (R306, R309). -/
theorem State.storeBytes_cases (i : Instr) (bs : List Byte) :
    (s.effAddr 0 + bs.length ≤ 4096 ∧ s.storeBytes i bs = s.setMem (s.mem.writeAll (s.effAddr 0) bs)) ∨
    (0 < bs.length ∧ s.storeBytes i bs =
      ((s.setMem (s.mem.forget s.draws (s.effAddr 0) (max (s.effAddr 0) 4096 - s.effAddr 0))).nextDraw).instrFault
        (.writeOutOfBounds (max (s.effAddr 0) 4096)) i) ∨ (bs = [] ∧ s.storeBytes i bs = s) := by
  rcases bs with _ | ⟨b, bs⟩
  · exact .inr (.inr ⟨rfl, rfl⟩)
  · rcases Nat.lt_or_ge 4096 (s.effAddr 0 + (b :: bs).length) with h | h
    · exact .inr (.inl ⟨by simp, s.storeBytes_fault i (by simp) h⟩)
    · exact .inl ⟨h, s.storeBytes_ok i h⟩

/-! ## Operands -/

@[simp] theorem bcdDigits_length (b : Byte) : (bcdDigits b).length = 3 := rfl

@[simp] theorem State.regRange_length (x : Reg) : (s.regRange x).length = x.val + 1 := by
  simp only [State.regRange, rangeLength, List.length_take, Vector.length_toList]
  omega

/-- The j-th byte of a register range is V[j] (R204). -/
theorem State.regRange_getElem? (x : Reg) (j : Reg) (h : j.val ≤ x.val) : (s.regRange x)[j.val]? = some (s.reg j) := by
  simp only [State.regRange, rangeLength, State.reg_eq_getElem]
  rw [List.getElem?_take_of_lt (by omega)]
  simp

theorem State.effAddr_eq (j : Nat) : s.effAddr j = s.effAddr 0 + j := by simp [State.effAddr]

/-! ## Loading a register range -/

theorem loadFrom_getElem (bs : List Byte) (v : Vector Byte 16) (k : Nat) (y : Reg) :
    (loadFrom v k bs)[y.val] = if k ≤ y.val then (bs[y.val - k]?).getD v[y.val] else v[y.val] := by
  induction bs generalizing v k with
  | nil => simp [loadFrom]
  | cons b bs ih =>
    rw [loadFrom, ih, Vector.getElem_setIfInBounds]
    rcases Nat.lt_trichotomy y.val k with h | h | h
    · simp [show ¬ k + 1 ≤ y.val by omega, show ¬ k ≤ y.val by omega, show k ≠ y.val by omega]
    · simp [h]
    · have : y.val - k = (y.val - (k + 1)) + 1 := by omega
      simp [show k + 1 ≤ y.val by omega, show k ≤ y.val by omega, show k ≠ y.val by omega, this]

/-- A register after a range is loaded: its byte of the list, or its old value past the list's end (R205). -/
theorem State.loadRegs_reg (bs : List Byte) (y : Reg) : (s.loadRegs bs).reg y = (bs[y.val]?).getD (s.reg y) := by
  simp only [State.reg_eq_getElem, State.loadRegs_v, loadFrom_getElem]
  simp

/-- A register the fault point of a load lies below keeps its value (R309). -/
theorem State.forgetRegs_reg_ge {n : Nat} {y : Reg} (h : n ≤ y.val) : (s.forgetRegs n).reg y = s.reg y := by
  rw [State.forgetRegs, State.loadRegs_reg, List.getElem?_eq_none (by simpa using h)]
  rfl

/-- A register written before the fault point of a load holds the free value of the draw (R309). -/
theorem State.forgetRegs_reg_lt {n : Nat} {y : Reg} (h : y.val < n) :
    (s.forgetRegs n).reg y = Config.unspecifiedByte s.draws (s.effAddr y.val) := by
  rw [State.forgetRegs, State.loadRegs_reg]
  simp [h]

/-! ## The timers -/

/-- A timer counts down by one, and stays at 0 (R320). -/
theorem countDown_toNat (t : Byte) : (countDown t).toNat = t.toNat - 1 := by
  unfold countDown
  split
  · next h => simp [h]
  · next h =>
    have : t.toNat ≠ 0 := fun e => h (BitVec.eq_of_toNat_eq (by simpa using e))
    simp [BitVec.toNat_sub]
    omega

end Sys2Proof.Machine
end

