-- ==== Sys2Proof/Laws/PerInstr.lean ====
section
/-! SUPPORT. Facts about every instruction as syntax, one lemma for each constructor. Family `EncodesFamily`: the bits
15:12 of an instruction's word are the first digit of its pattern (spec/30_encoding.md R81, R83). -/

namespace Sys2Proof.Laws.EncodesFamily

open Sys2Proof

def Statement (i : Instr) : Prop := family (encode i) = i.family

theorem cls : Statement (.cls) := rfl
theorem ret : Statement (.ret) := rfl
theorem jp (nnn : Addr12) : Statement (.jp nnn) := family_packNnn ..
theorem call (nnn : Addr12) : Statement (.call nnn) := family_packNnn ..
theorem seImm (x : Reg) (kk : Byte) : Statement (.seImm x kk) := family_packXkk ..
theorem sneImm (x : Reg) (kk : Byte) : Statement (.sneImm x kk) := family_packXkk ..
theorem seReg (x y : Reg) : Statement (.seReg x y) := family_packXyn ..
theorem ldImm (x : Reg) (kk : Byte) : Statement (.ldImm x kk) := family_packXkk ..
theorem addImm (x : Reg) (kk : Byte) : Statement (.addImm x kk) := family_packXkk ..
theorem ldReg (x y : Reg) : Statement (.ldReg x y) := family_packXyn ..
theorem orReg (x y : Reg) : Statement (.orReg x y) := family_packXyn ..
theorem andReg (x y : Reg) : Statement (.andReg x y) := family_packXyn ..
theorem xorReg (x y : Reg) : Statement (.xorReg x y) := family_packXyn ..
theorem addReg (x y : Reg) : Statement (.addReg x y) := family_packXyn ..
theorem subReg (x y : Reg) : Statement (.subReg x y) := family_packXyn ..
theorem shr (x y : Reg) : Statement (.shr x y) := family_packXyn ..
theorem subnReg (x y : Reg) : Statement (.subnReg x y) := family_packXyn ..
theorem shl (x y : Reg) : Statement (.shl x y) := family_packXyn ..
theorem sneReg (x y : Reg) : Statement (.sneReg x y) := family_packXyn ..
theorem ldI (nnn : Addr12) : Statement (.ldI nnn) := family_packNnn ..
theorem jpV0 (nnn : Addr12) : Statement (.jpV0 nnn) := family_packNnn ..
theorem rnd (x : Reg) (kk : Byte) : Statement (.rnd x kk) := family_packXkk ..
theorem drw (x y : Reg) (n : Rows) : Statement (.drw x y n) := family_packXyn ..
theorem skp (x : Reg) : Statement (.skp x) := family_packXkk ..
theorem sknp (x : Reg) : Statement (.sknp x) := family_packXkk ..
theorem ldVxDt (x : Reg) : Statement (.ldVxDt x) := family_packXkk ..
theorem ldVxK (x : Reg) : Statement (.ldVxK x) := family_packXkk ..
theorem ldDtVx (x : Reg) : Statement (.ldDtVx x) := family_packXkk ..
theorem ldStVx (x : Reg) : Statement (.ldStVx x) := family_packXkk ..
theorem addI (x : Reg) : Statement (.addI x) := family_packXkk ..
theorem ldF (x : Reg) : Statement (.ldF x) := family_packXkk ..
theorem ldB (x : Reg) : Statement (.ldB x) := family_packXkk ..
theorem storeRegs (x : Reg) : Statement (.storeRegs x) := family_packXkk ..
theorem loadRegs (x : Reg) : Statement (.loadRegs x) := family_packXkk ..
theorem sys (nnn : Addr12) : Statement (.sys nnn) := family_packNnn ..
theorem nop5 (low : Addr12) : Statement (.nop5 low) := family_packNnn ..
theorem nop8 (low : Addr12) : Statement (.nop8 low) := family_packNnn ..
theorem nop9 (low : Addr12) : Statement (.nop9 low) := family_packNnn ..
theorem nopE (low : Addr12) : Statement (.nopE low) := family_packNnn ..
theorem nopF (low : Addr12) : Statement (.nopF low) := family_packNnn ..

end Sys2Proof.Laws.EncodesFamily
end

