-- ==== Sys2Proof/Tests/Slice0.lean ====
section
/-! SUPPORT. The model's own tests. Expected results are those of spec/95_test_vectors.md (the id of the vector stands
before each test) or of the rule named; words are written out from the encodings of spec/30_encoding.md R83. -/

namespace Sys2Proof.Tests

open Sys2Proof Sys2Proof.Machine Sys2Proof.Claims

/-! ## WellFormed: an ill-formed term for each check -/

theorem test_sys_cls_ill : (Instr.sys 0x0E0).wellFormed = false := by decide
theorem test_sys_ret_ill : (Instr.sys 0x0EE).wellFormed = false := by decide
theorem test_sys_well : (Instr.sys 0x123).wellFormed = true := by decide
theorem test_nop5_ill : (Instr.nop5 0x120).wellFormed = false := by decide
theorem test_nop8_ill : (Instr.nop8 0x12E).wellFormed = false := by decide
theorem test_nop9_ill : (Instr.nop9 0x120).wellFormed = false := by decide
theorem test_nopE_ill : (Instr.nopE 0x19E).wellFormed = false := by decide
theorem test_nopF_ill : (Instr.nopF 0x165).wellFormed = false := by decide
theorem test_nop_well : (Instr.nop5 0x121).wellFormed ∧ (Instr.nop8 0x12F).wellFormed ∧ (Instr.nop9 0x121).wellFormed ∧
    (Instr.nopE 0x19F).wellFormed ∧ (Instr.nopF 0x156).wellFormed := by decide

/-! ## Decoding: every constructor by a word written out bit by bit from R83 -/

theorem test_decode_family0 : decodeWord 0b0000000011100000 = .cls ∧ decodeWord 0b0000000011101110 = .ret ∧
    decodeWord 0b0000000100100011 = .sys 0x123 := by decide
theorem test_decode_jumps : decodeWord 0b0001001000110100 = .jp 0x234 ∧ decodeWord 0b0010001000010000 = .call 0x210 ∧
    decodeWord 0b1011001100000000 = .jpV0 0x300 := by decide
theorem test_decode_skips : decodeWord 0b0011001101000010 = .seImm 3 0x42 ∧
    decodeWord 0b0100001101000010 = .sneImm 3 0x42 ∧ decodeWord 0b0101000100100000 = .seReg 1 2 ∧
    decodeWord 0b1001000100100000 = .sneReg 1 2 := by decide
theorem test_decode_immediate : decodeWord 0b0110101000101011 = .ldImm 0xA 0x2B ∧
    decodeWord 0b0111000000000011 = .addImm 0 3 ∧ decodeWord 0b1100001100001111 = .rnd 3 0x0F := by decide
theorem test_decode_logic : decodeWord 0b1000000000010000 = .ldReg 0 1 ∧ decodeWord 0b1000000000010001 = .orReg 0 1 ∧
    decodeWord 0b1000000000010010 = .andReg 0 1 ∧ decodeWord 0b1000000000010011 = .xorReg 0 1 := by decide
theorem test_decode_arith : decodeWord 0b1000000000010100 = .addReg 0 1 ∧ decodeWord 0b1000000000010101 = .subReg 0 1 ∧
    decodeWord 0b1000001000110110 = .shr 2 3 ∧ decodeWord 0b1000000000010111 = .subnReg 0 1 ∧
    decodeWord 0b1000001000111110 = .shl 2 3 := by decide
theorem test_decode_display_keys : decodeWord 0b1101101010110101 = .drw 0xA 0xB 5 ∧
    decodeWord 0b1110001010011110 = .skp 2 ∧ decodeWord 0b1110001010100001 = .sknp 2 := by decide
theorem test_decode_index : decodeWord 0b1010001011110000 = .ldI 0x2F0 ∧ decodeWord 0b1111000100011110 = .addI 1 ∧
    decodeWord 0b1111000000101001 = .ldF 0 ∧ decodeWord 0b1111011100110011 = .ldB 7 ∧
    decodeWord 0b1111001001010101 = .storeRegs 2 ∧ decodeWord 0b1111001001100101 = .loadRegs 2 := by decide
theorem test_decode_timers : decodeWord 0b1111001100000111 = .ldVxDt 3 ∧ decodeWord 0b1111010100001010 = .ldVxK 5 ∧
    decodeWord 0b1111000000010101 = .ldDtVx 0 ∧ decodeWord 0b1111000000011000 = .ldStVx 0 := by decide
theorem test_decode_near_misses : decodeWord 0x5121 = .nop5 0x121 ∧ decodeWord 0x8128 = .nop8 0x128 ∧
    decodeWord 0x912F = .nop9 0x12F ∧ decodeWord 0xE09F = .nopE 0x09F ∧ decodeWord 0xF0FF = .nopF 0x0FF := by decide
theorem test_decode_bytes_truncated : decodeBytes [0x60] = .error .truncated := by rfl
theorem test_decode_bytes_rest : decodeBytes [0x6A, 0x2B, 0xFF] = .ok (.ldImm 0xA 0x2B, [0xFF]) := by rfl
theorem test_decode_table_word : decodeTableWord 16 0x6A2B = some (.ldImm 0xA 0x2B) := by decide
theorem test_encode_words : encode (.drw 0xA 0xB 5) = 0xDAB5 ∧ encode (.shr 2 0xF) = 0x82F6 ∧ encode (.jp 0x234) = 0x1234 ∧
    encodeBytes (.ldImm 0xA 0x2B) = [0x6A, 0x2B] := by decide

/-! ## Helpers: one step of a small state, and one field of what it answers -/

/-- The reset state with some registers set. -/
def withRegs (rs : List (Reg × Byte)) : State := rs.foldl (fun s r => s.setReg r.1 r.2) State.reset

/-- The next state of one step that runs the word `w`. -/
def run (s : State) (w : Nat) : Option State :=
  match step (s.withFetchWord 16 w) with
  | .next t => some t
  | .fault _ => none
  | .refused _ => none

/-- Two registers after the step. -/
def regs2 (s : State) (w : Nat) (x y : Reg) : Option (Byte × Byte) := (run s w).map fun t => (t.reg x, t.reg y)

/-- PC after the step. -/
def pcOf (s : State) (w : Nat) : Option Word := (run s w).map State.pc

/-- RUNSTATE after the step. -/
def runStateOf (s : State) (w : Nat) : Option RunState := (run s w).map State.runState

/-- Bytes of memory after the step. -/
def bytesOf (s : State) (w : Nat) (a n : Nat) : Option (List Byte) :=
  (run s w).map fun t => (List.range n).map fun j => t.mem.read (a + j)

/-- The lit cells among those listed, as (row, column). -/
def litOf (s : State) (w : Nat) (cells : List (Fin 32 × Fin 64)) : Option (List (Fin 32 × Fin 64)) :=
  (run s w).map fun t => cells.filter fun c => t.fb.cell c.1 c.2

/-! ## Control flow (2.1) -/

/-- A state with return addresses on the stack. -/
def withStack (sp : Fin 17) (slot : Word) (pc : Word) : State :=
  { State.reset with stack := State.reset.stack.set 0 slot, sp := sp, pc := pc }

/-- CF-RET-1. -/
theorem test_ret : pcOf (withStack 1 0x206 0x210) 0x00EE = some 0x206 := by decide
/-- CF-RET-2. -/
theorem test_ret_underflow : runStateOf (withStack 0 0 0x210) 0x00EE =
    some (.faulted ⟨.stackUnderflow, 0x210, some 0x00EE⟩) := by decide
/-- CF-JP-1. -/
theorem test_jp : pcOf State.reset 0x1234 = some 0x234 := by decide
/-- CF-CALL-1. -/
theorem test_call : (run (withStack 0 0 0x204) 0x2210).map (fun t => (t.stack[0], t.sp, t.pc)) =
    some (0x206, 1, 0x210) := by decide
/-- CF-CALL-2. -/
theorem test_call_overflow : (run (withStack 16 0 0x204) 0x2210).map (fun t => (t.runState, t.pc, t.sp)) =
    some (.faulted ⟨.stackOverflow 0x206, 0x204, some 0x2210⟩, 0x206, 16) := by decide
/-- CF-SE-1, CF-SE-2. -/
theorem test_seImm : pcOf (withRegs [(3, 0x42)]) 0x3342 = some 0x204 ∧ pcOf (withRegs [(3, 0x42)]) 0x3343 = some 0x202 := by
  decide
/-- CF-SNE-1, CF-SNE-2. -/
theorem test_sneImm : pcOf (withRegs [(3, 0x42)]) 0x4342 = some 0x202 ∧ pcOf (withRegs [(3, 0x42)]) 0x4300 = some 0x204 := by
  decide
/-- CF-SER-1, CF-SER-2. -/
theorem test_seReg : pcOf (withRegs [(1, 7), (2, 7)]) 0x5120 = some 0x204 ∧ pcOf (withRegs [(1, 7), (2, 8)]) 0x5120 = some 0x202 := by
  decide
/-- CF-SNER-1, CF-SNER-2. -/
theorem test_sneReg : pcOf (withRegs [(1, 7), (2, 8)]) 0x9120 = some 0x204 ∧ pcOf (withRegs [(1, 7), (2, 7)]) 0x9120 = some 0x202 := by
  decide
/-- CF-JPV0-2, CF-JPV0-3. -/
theorem test_jpV0 : pcOf (withRegs [(0, 0xFF)]) 0xBFFF = some 0x10FE ∧ pcOf (withRegs [(0, 1), (5, 0x40)]) 0xB500 = some 0x501 := by
  decide

/-! ## Register file and ALU (2.2) -/

/-- ALU-LDI-2. -/
theorem test_ldImm : regs2 (withRegs [(15, 1)]) 0x6F00 15 0 = some (0, 0) := by decide
/-- ALU-ADDI-2. -/
theorem test_addImm : regs2 (withRegs [(0, 0xFF), (15, 0x55)]) 0x7001 0 15 = some (0, 0x55) := by decide
/-- ALU-LD-1. -/
theorem test_ldReg : regs2 (withRegs [(1, 9)]) 0x8010 0 1 = some (9, 9) := by decide
/-- ALU-OR-1. -/
theorem test_orReg : regs2 (withRegs [(0, 0x0F), (1, 0xF0), (15, 0x55)]) 0x8011 0 15 = some (0xFF, 0x55) := by decide
/-- ALU-AND-1. -/
theorem test_andReg : regs2 (withRegs [(0, 0x3C), (1, 0x0F), (15, 1)]) 0x8012 0 15 = some (0x0C, 1) := by decide
/-- ALU-XOR-1. -/
theorem test_xorReg : regs2 (withRegs [(0, 0x3C), (1, 0x0F)]) 0x8013 0 1 = some (0x33, 0x0F) := by decide
/-- ALU-ADD-1 (W1). -/
theorem test_addReg : regs2 (withRegs [(0, 200), (1, 60)]) 0x8014 0 15 = some (4, 1) := by decide
/-- ALU-ADD-5: the flag is written last. -/
theorem test_addReg_vf : regs2 (withRegs [(15, 0xF0), (1, 0x20)]) 0x8F14 15 1 = some (1, 0x20) := by decide
/-- ALU-SUB-2. -/
theorem test_subReg : regs2 (withRegs [(0, 3), (1, 5)]) 0x8015 0 15 = some (0xFE, 0) := by decide
/-- ALU-SUB-3: strict. -/
theorem test_subReg_equal : regs2 (withRegs [(0, 7), (1, 7), (15, 1)]) 0x8015 0 15 = some (0, 0) := by decide
/-- ALU-SHR-4. -/
theorem test_shr : regs2 (withRegs [(2, 4), (3, 0xFF), (15, 1)]) 0x8236 2 15 = some (2, 0) := by decide
/-- ALU-SHR-5. -/
theorem test_shr_vf : regs2 (withRegs [(15, 3)]) 0x8F06 15 0 = some (1, 0) := by decide
/-- ALU-SUBN-1. -/
theorem test_subnReg : regs2 (withRegs [(0, 3), (1, 5)]) 0x8017 0 15 = some (2, 1) := by decide
/-- ALU-SUBN-2. -/
theorem test_subnReg_borrow : regs2 (withRegs [(0, 5), (1, 3)]) 0x8017 0 15 = some (0xFE, 0) := by decide
/-- ALU-SHL-1. -/
theorem test_shl : regs2 (withRegs [(2, 0x81)]) 0x820E 2 15 = some (2, 1) := by decide
/-- ALU-SHL-5. -/
theorem test_shl_y : regs2 (withRegs [(2, 1), (3, 0x80), (15, 1)]) 0x823E 2 15 = some (2, 0) := by decide
/-- ALU-RND-2: whatever the draw. -/
theorem test_rnd_zero (s : State) : exec (.rnd 3 0) s = .next ((s.setReg 3 0).nextDraw) := by
  simp [exec, execRnd]

/-! ## Index register and memory (2.3) -/

/-- The reset state with I set. -/
def atIndex (i : Word) (rs : List (Reg × Byte)) : State := (withRegs rs).setI i

/-- IM-LDI-1. -/
theorem test_ldI : (run State.reset 0xA2F0).map State.i = some 0x2F0 := by decide
/-- IM-ADDI-2. -/
theorem test_addI : (run (atIndex 0xFFFF [(1, 2)]) 0xF11E).map State.i = some 1 := by decide
/-- IM-ADDI-3. -/
theorem test_addI_vf : (run (atIndex 0x100 [(15, 0x20)]) 0xFF1E).map (fun t => (t.i, t.reg 15)) = some (0x120, 0x20) := by decide
/-- IM-FONT-4, IM-FONT-5. -/
theorem test_ldF : (run (withRegs [(0, 0x10)]) 0xF029).map State.i = some 0x050 ∧
    (run (withRegs [(0, 0xFF)]) 0xF029).map State.i = some 0x4FB := by decide
/-- IM-BCD-1 (W5). -/
theorem test_ldB : bytesOf (atIndex 0x400 [(7, 254)]) 0xF733 0x400 3 = some [2, 5, 4] := by decide
/-- IM-BCD-7. -/
theorem test_ldB_fault : (run (atIndex 0xFFE [(7, 123)]) 0xF733).map (fun t => (t.runState, t.pc, t.i)) =
    some (.faulted ⟨.writeOutOfBounds 0x1000, 0x200, some 0xF733⟩, 0x202, 0xFFE) := by rfl
/-- IM-ST-1. -/
theorem test_storeRegs : bytesOf (atIndex 0x300 [(0, 1), (1, 2), (2, 3), (3, 4)]) 0xF255 0x300 4 = some [1, 2, 3, 0] := by decide
/-- IM-ST-5. -/
theorem test_storeRegs_fault : (run (atIndex 0x1000 []) 0xF055).map (fun t => (t.runState, t.mem.read 0xFFF)) =
    some (.faulted ⟨.writeOutOfBounds 0x1000, 0x200, some 0xF055⟩, 0) := by decide
/-- IM-LD-3 (the default FONT). -/
theorem test_loadRegs : (run (atIndex 0 []) 0xF465).map (fun t => (List.range 6).map fun j => t.v[j]?) =
    some [some 0xF0, some 0x90, some 0x90, some 0x90, some 0xF0, some 0] := by decide
/-- IM-LD-4. -/
theorem test_loadRegs_fault : runStateOf (atIndex 0xFFE []) 0xF265 =
    some (.faulted ⟨.readOutOfBounds 0x1000, 0x200, some 0xF265⟩) := by decide

/-- R205, R309: the fault of IM-LD-4 leaves the register at its fault point, and the ones above, as they were. -/
theorem test_loadRegs_fault_frame : regs2 (atIndex 0xFFE [(2, 7), (3, 9)]) 0xF265 2 3 = some (7, 9) := by decide

/-! ## Framebuffer (2.4) -/

/-- The reset state with bytes at 0x300 and I = 0x300. -/
def withSprite (bs : List Byte) (rs : List (Reg × Byte)) : State :=
  let s := atIndex 0x300 rs
  s.setMem (s.mem.writeAll 0x300 bs)

/-- FB-CLS-1. -/
theorem test_cls : (run (State.reset.setFb (State.reset.fb.toggle 5 5)) 0x00E0).map (fun t => (t.fb.cell 5 5, t.dirty)) =
    some (false, true) := by decide
/-- FB-DRW-1 (glyph "0" of the default FONT). -/
theorem test_drw_glyph : litOf (atIndex 0 []) 0xD015 [(0, 0), (0, 3), (0, 4), (1, 0), (1, 1), (1, 3), (4, 2)] =
    some [(0, 0), (0, 3), (1, 0), (1, 3), (4, 2)] := by decide
/-- FB-DRW-3: wrapping at the right edge. -/
theorem test_drw_wrap : litOf (withSprite [0x81] [(0, 60)]) 0xD011 [(0, 60), (0, 61), (0, 3), (0, 4)] =
    some [(0, 60), (0, 3)] := by decide

/-! ## Timers and keys (2.5) -/

/-- TK-SKP-1. -/
theorem test_skp : pcOf ((withRegs [(2, 5)]).setKey 5 true) 0xE29E = some 0x204 := by decide
/-- TK-KEY-F. -/
theorem test_skp_fault : runStateOf (withRegs [(2, 16)]) 0xE29E =
    some (.faulted ⟨.keyIndexOutOfRange 16, 0x200, some 0xE29E⟩) := by decide
/-- TK-SKNP-1, TK-SKNP-2. -/
theorem test_sknp : pcOf (withRegs [(2, 5)]) 0xE2A1 = some 0x204 ∧ pcOf ((withRegs [(2, 5)]).setKey 5 true) 0xE2A1 = some 0x202 := by
  decide
/-- TK-GDT-1. -/
theorem test_ldVxDt : regs2 (State.reset.setDt 0x3C) 0xF307 3 15 = some (0x3C, 0) := by decide
/-- TK-SDT-1. -/
theorem test_ldDtVx : (run (withRegs [(0, 60)]) 0xF015).map State.dt = some 60 := by decide
/-- TK-SST-1. -/
theorem test_ldStVx : (run (withRegs [(0, 2)]) 0xF018).map (fun t => (t.st, t.soundActive)) = some (2, false) := by decide
/-- TK-WAIT-1. -/
theorem test_ldVxK : (run (State.reset.setPc 0x206) 0xF50A).map (fun t => (t.runState, t.pc, t.reg 5)) =
    some (.halted 5, 0x208, 0) := by decide
/-- TK-TICK-3. -/
theorem test_tick : (((State.reset.setDt 1).setSt 255).timerTick.dt, ((State.reset.setDt 1).setSt 255).timerTick.st,
    ((State.reset.setDt 1).setSt 255).timerTick.soundActive) = (0, 254, true) := by decide

/-! ## Unrecognized (2.6) -/

theorem test_nops : [0x0000, 0x0123, 0x00E1, 0x5121, 0x8128, 0x9121, 0xE19F, 0xF1FF].map (pcOf State.reset) =
    List.replicate 8 (some 0x202) := by decide

/-! ## Steps, cycles and host calls (2.5, 2.7) -/

/-- CY-6. -/
theorem test_fetch_fault : (match step (State.reset.setPc 0xFFF) with
    | .next t => some (t.runState, t.pc) | .fault _ => none | .refused _ => none) =
    some (.faulted ⟨.fetchOutOfBounds 0x1000, 0xFFF, none⟩, 0xFFF) := by decide
/-- CY-7. -/
theorem test_odd_pc : (run (State.reset.setPc 0x201) 0x6012).map (fun t => (t.reg 0, t.pc)) = some (0x12, 0x203) := by decide
/-- CY-4 for the tick at the end of a batch: the tenth slot of IPT = 10. -/
theorem test_tick_at_end : (run (((State.reset.setDt 3).setSt 3).setBatchDone 9) 0x1200).map
    (fun t => (t.dt, t.st, t.soundActive, t.batchDone)) = some (2, 2, true, 0) := by decide
/-- TK-WAIT-2. -/
theorem test_setKeyDown : (match setKeyDown 7 (State.reset.setRunState (.halted 5)) with
    | .ok t => some (t.keyDown 7, t.reg 5, t.runState) | .error _ => none) = some (true, 7, .running) := by decide

/-! ## Witnesses

For each statement that has hypotheses, a state and operands that meet them: one for each clause, at a boundary of its
range. The name is that of the statement. -/

/-- A state in which every element of the invariant is at its bound. -/
def atBounds : State :=
  { State.reset with
    pc := 0x10FE
    sp := 16
    stack := Vector.replicate 16 0x1000
    mem := Memory.write [] 0xFFF 1
    batchDone := 9 }

/-- The reset state with a batch of one instruction and a word at PC. -/
def oneSlot (w : Nat) : State := ({ State.reset with ipt := 1 }).withFetchWord 16 w

/-- The reset state after a fault. -/
def afterFault : State := State.reset.setRunState (.faulted ⟨.stackUnderflow, 0x200, some 0x00EE⟩)

/-- What `f` says of the state before an instruction and its next state. -/
def changes (i : Instr) (s : State) (f : State → State → Bool) : Bool :=
  match exec i s with
  | .next t => f s t
  | .fault _ => false
  | .refused _ => false

theorem witness_DecodeOfEncodeIsTheInstruction : (Instr.sys 0xFFF).wellFormed = true ∧ (Instr.nop8 0xFFF).wellFormed = true ∧
    (Instr.nopF 0xF66).wellFormed = true ∧ (Instr.drw 15 15 15).wellFormed = true := by decide

theorem witness_DecoderFollowsTheOpcodeMap :
    (∀ r ∈ exactRows, r.mnemonic = "RET" → r.selects 0x00EE = true ∧ r.selects 0x00EF = false) ∧
    (exactRows.map OpcodeRow.mnemonic).contains "RET" = true := by decide

theorem witness_EveryWordMatchesOneRowOrIsANoOp :
    (exactRows.filter fun r => r.selects 0xFF65).length = 1 ∧ (exactRows.filter fun r => r.selects 0xFF66).length = 0 := by
  decide

/-- Both cases of the destination of a flag writer. -/
theorem witness_flag_destination : (0 : Reg) ≠ vf ∧ (14 : Reg) ≠ vf ∧ ¬ (15 : Reg) ≠ vf := by decide

theorem witness_ReturnPopsOrUnderflows : (withStack 1 0x206 0x210).sp.val = (0 : Fin 16).val + 1 ∧
    (withStack 16 0x206 0x210).sp.val = (15 : Fin 16).val + 1 ∧ (withStack 0 0 0x210).sp.val = 0 := by decide

theorem witness_CallPushesOrOverflows : (withStack 0 0 0x210).sp.val = (0 : Fin 16).val ∧
    (withStack 15 0 0x210).sp.val = (15 : Fin 16).val ∧ (withStack 16 0 0x210).sp.val = 16 := by decide

/-- The callee of the call at depth 15 sets a register and nothing else. -/
theorem witness_CallThenReturnComesBack : (withStack 15 0 0x210).sp.val < 16 ∧
    changes (.call 0x300) (withStack 15 0 0x210) (fun _ t =>
      (t.setReg 0 7).sp == t.sp && (List.finRange 16).all fun j => (t.setReg 0 7).stack[j] == t.stack[j]) = true := by decide

theorem witness_BcdStoresThreeDigits : (atIndex 0xFFD []).i.toNat + 2 < 4096 ∧ (atIndex 0 []).i.toNat + 2 < 4096 := by decide

theorem witness_StoreRegistersWritesTheRange : (atIndex 0xFF0 []).i.toNat + (15 : Reg).val < 4096 ∧
    (atIndex 0xFFF []).i.toNat + (0 : Reg).val < 4096 ∧ (15 : Reg).val ≤ (15 : Reg).val := by decide

theorem witness_LoadRegistersReadsTheRange : (atIndex 0xFF0 []).i.toNat + (15 : Reg).val < 4096 ∧
    (atIndex 0xFFF []).i.toNat + (0 : Reg).val < 4096 ∧ (0 : Reg).val ≤ (15 : Reg).val := by decide

theorem witness_StoresOutOfBoundsFault : 4096 ≤ (atIndex 0xFFE []).i.toNat + 2 ∧
    4096 ≤ (atIndex 0xFF1 []).i.toNat + (15 : Reg).val ∧ 4096 ≤ (atIndex 0xFFFF []).i.toNat + (0 : Reg).val := by decide

theorem witness_ReadsOutOfBoundsFault : 4096 ≤ (atIndex 0xFF1 []).i.toNat + (15 : Reg).val ∧
    4096 ≤ (atIndex 0x1000 []).i.toNat + (0 : Reg).val ∧
    0 < (1 : Rows).val ∧ 4096 < (atIndex 0x1000 []).i.toNat + (1 : Rows).val ∧
    4096 < (atIndex 0xFF2 []).i.toNat + (15 : Rows).val := by decide

theorem witness_DrawSpriteTogglesCoveredCells : (List.replicate 15 (0x81 : Byte)).length ≤ 15 ∧ ([] : List Byte).length ≤ 15 := by
  decide

theorem witness_DoubleDrawCancels : (List.replicate 15 (0xFF : Byte)).length ≤ 15 := by decide

theorem witness_DrawTogglesAndSetsCollision : ((0 : Rows).val = 0 ∨ (atIndex 0xFFFF []).i.toNat + (0 : Rows).val ≤ 4096) ∧
    ((15 : Rows).val = 0 ∨ (atIndex 0xFF1 []).i.toNat + (15 : Rows).val ≤ 4096) := by decide

/-- The clause of a collision: the pixel of the sprite row 0x80 at (0, 0) lands on a lit cell. -/
theorem witness_DrawTogglesAndSetsCollision_lit :
    let s := (withSprite [0x80] []).setFb (State.reset.fb.toggle 0 0)
    ∃ r c, SpriteCovers (s.reg 0) (s.reg 1) (spriteBytes s 1) r c ∧ s.fb.cell r c = true :=
  ⟨0, 0, ⟨0, 0, 0x80, by decide, by decide, by decide, by decide, by decide⟩, by decide⟩

/-- The clause of no collision: a clear screen. -/
theorem witness_DrawTogglesAndSetsCollision_clear :
    let s := withSprite [0x80] []
    ¬ ∃ r c, SpriteCovers (s.reg 0) (s.reg 1) (spriteBytes s 1) r c ∧ s.fb.cell r c = true := by
  intro s
  rintro ⟨r, c, -, h⟩
  have hs : ∀ (r : Fin 32) (c : Fin 64), State.reset.fb.cell r c = false := by simp [Framebuffer.cell, State.reset]
  exact absurd (h.symm.trans (hs r c)) (by decide)

theorem witness_KeySkipsOrFault : ((withRegs []).reg 2).toNat = (0 : Reg).val ∧ ((withRegs [(2, 15)]).reg 2).toNat = (15 : Reg).val ∧
    15 < ((withRegs [(2, 16)]).reg 2).toNat ∧ 15 < ((withRegs [(2, 255)]).reg 2).toNat := by decide

theorem witness_FallbackRowsChangeNothing : Instr.nopF 0xF66 ∈ [Instr.sys 0xF66, .nop5 0xF66, .nop8 0xF66, .nop9 0xF66, .nopE 0xF66,
    .nopF 0xF66] := by decide

/-- By the flag of an addition, and by a destination. -/
theorem witness_OnlyFlagOpcodesWriteVf :
    changes (.addReg 0 0) (withRegs [(0, 0x80)]) (fun s t => t.reg vf != s.reg vf) = true ∧
    changes (.ldImm 15 1) State.reset (fun s t => t.reg vf != s.reg vf) = true := by decide

theorem witness_EachElementHasItsWriters :
    changes (.ldI 1) State.reset (fun s t => t.i != s.i) = true ∧
    changes (.jp 0) State.reset (fun s t => t.pc != s.pc) = true ∧
    changes (.call 0) State.reset (fun s t => t.sp != s.sp) = true ∧
    changes (.storeRegs 0) (atIndex 0xFFF [(0, 1)]) (fun s t => t.mem.read 0xFFF != s.mem.read 0xFFF) = true ∧
    changes .cls State.reset (fun s t => t.dirty != s.dirty) = true := by decide

/-- Each of the three ends. -/
theorem witness_RunStateLeavesRunningOnlySo : State.reset.runState = .running ∧
    changes (.jp 0) State.reset (fun _ t => t.runState == .running) = true ∧
    changes (.ldVxK 15) State.reset (fun _ t => t.runState == .halted 15) = true ∧
    changes .ret State.reset (fun _ t => t.isFaulted) = true := by decide

theorem witness_StepRunsTheDecodedInstruction :
    let s := (State.reset.setPc 0xFFE).withFetchWord 16 0xFF65
    s.runState = .running ∧ 0 < s.ipt ∧ s.pc.toNat + 1 < 4096 ∧
      (match decodeBytes [s.mem.read s.pc.toNat, s.mem.read (s.pc.toNat + 1)] with
        | .ok p => p == (.loadRegs 15, [])
        | .error _ => false) = true := by decide

theorem witness_FetchIsBigEndianOrFaults :
    let s := (State.reset.setPc 0xFFE).withFetchWord 16 0x1234
    s.pc.toNat + 1 < 4096 ∧ (0x1234 : Word).toNat = (s.mem.read s.pc.toNat).toNat * 256 + (s.mem.read (s.pc.toNat + 1)).toNat ∧
    4096 ≤ (State.reset.setPc 0xFFF).pc.toNat + 1 := by decide

theorem witness_StoredWordIsFetchedNext :
    let s := (withRegs [(0, 0x12), (1, 0x34)]).setPc 0xFFE |>.setI 0xFFE
    1 ≤ (1 : Reg).val ∧ s.i = s.pc ∧ s.i.toNat + (1 : Reg).val < 4096 := by decide

theorem witness_OnlyFaultedStepsStop : State.reset.isFaulted = false ∧ (State.reset.setRunState (.halted 15)).isFaulted = false ∧
    afterFault.runState = .faulted ⟨.stackUnderflow, 0x200, some 0x00EE⟩ := by decide

theorem witness_CycleIsItsSteps : State.reset.runState = .running ∧ State.reset.batchDone = 0 ∧
    ({ State.reset with ipt := 0 }).batchDone = 0 := by decide

/-- A `Cycle` that ends Running with ST > 0, one that halts, one that is skipped. -/
theorem witness_SoundActiveAfterCycle :
    (match cycle ((oneSlot 0x1200).setSt 2) with
      | .next t => decide (t.runState = .running) && t.soundActive && t.st == 1 | .fault _ => false | .refused _ => false) = true ∧
    (match cycle ((oneSlot 0xF00A).setSt 2) with
      | .next t => decide (t.runState ≠ .running) && !t.soundActive | .fault _ => false | .refused _ => false) = true ∧
    (match cycle (afterFault.setSt 2) with
      | .next t => t.st == 2 | .fault _ => false | .refused _ => false) = true := by decide

/-- In Halted: a `Cycle` is performed, and so is a key-down. -/
theorem witness_HaltedWaitsForKeyDown :
    let s := State.reset.setRunState (.halted 15)
    s.runState = .halted 15 ∧
    (match HostCall.run .cycle s with | .done t => t == s | .rejected _ => false | .stopped => false) = true ∧
    (match HostCall.run (.setKeyDown 15) s with
      | .done t => t.reg 15 == 15 && t.runState == .running | .rejected _ => false | .stopped => false) = true := by decide

theorem witness_CycleWithoutSlotsOnlyTicks : ({ State.reset with ipt := 0 }).runState = .running ∧
    ({ State.reset with ipt := 0 }).ipt = 0 := by decide

/-- Host calls of each kind after a fault. -/
theorem witness_FaultedIsForGood : afterFault.runState = .faulted ⟨.stackUnderflow, 0x200, some 0x00EE⟩ ∧
    (runCalls [.insertProgram [1], .cycle, .setKeyDown 15, .setKeyDown 16, .setKeyUp 0] afterFault).isFaulted = true := by decide

theorem witness_KeyCallsSetKeys : (15 < 16) ∧ (0 < 16) ∧ (15 < (16 : Nat)) ∧
    (State.reset.setRunState (.halted 15)).runState = .halted 15 ∧ ∀ x : Reg, State.reset.runState ≠ .halted x := by decide

theorem witness_InsertProgramLoadsOrRejects : (List.replicate 3584 (1 : Byte)).length ≤ 3584 ∧
    (List.replicate 3584 (1 : Byte))[3583]? = some 1 ∧ 3584 < (List.replicate 3585 (1 : Byte)).length :=
  ⟨(List.length_replicate ..).le, List.getElem?_replicate_of_lt (by omega), by rw [List.length_replicate]; omega⟩

/-- The default font as the argument of a construction. -/
theorem witness_ConstructionState :
    ∃ font : Vector Byte 80, font.toList = defaultFont ∧ (construct font 10 0).mem = [] :=
  ⟨⟨defaultFont.toArray, by decide⟩, by decide, by decide⟩

theorem atBounds_inv : atBounds.Inv :=
  ⟨by decide, by decide, by decide, by decide⟩

/-- A step from a state at the bounds of the invariant: the fetch faults. -/
theorem witness_StepKeepsTheInvariant : atBounds.Inv ∧
    (match step atBounds with | .next t => t.isFaulted | .fault _ => false | .refused _ => false) = true :=
  ⟨atBounds_inv, by decide⟩

/-- A host call between two `Cycle` calls, in a state at the bounds of the invariant. -/
theorem witness_HostCallsKeepTheInvariant : (atBounds.setBatchDone 0).Inv ∧ (atBounds.setBatchDone 0).batchDone = 0 ∧
    (match HostCall.run .cycle (atBounds.setBatchDone 0) with
      | .done t => t.isFaulted | .rejected _ => false | .stopped => false) = true :=
  ⟨⟨by decide, by decide, by decide, by decide⟩, by decide, by decide⟩

/-- Two ways to the same memory: the order of the stores does not show. -/
theorem witness_CanonicalMemoriesThatReadAlikeAreEqual :
    let m := (Memory.write [] 0xFFF 1).write 0 7
    let n := (Memory.write [] 0 7).write 0xFFF 1
    m.wf ∧ n.wf ∧ ∀ a, m.read a = n.read a := by
  refine ⟨by decide, by decide, fun a => ?_⟩
  show Memory.read [(0, 7), (0xFFF, 1)] a = Memory.read [(0, 7), (0xFFF, 1)] a
  rfl

/-- Two states that differ in a stale slot: the one at SP. -/
theorem witness_StaleSlotsAreNeverRead :
    SameButStaleSlots (withStack 0 0 0x200) (withStack 0 0x206 0x200) ∧ withStack 0 0 0x200 ≠ withStack 0 0x206 0x200 :=
  ⟨⟨rfl, by decide⟩, by decide⟩

end Sys2Proof.Tests
end

section
/-! PROOFS. The fields of a word, each as the digits of the word's number (spec/30_encoding.md R81): one lemma for each
field, so that later proofs about the decoder compute with numbers and need not unfold the fields. -/

namespace Sys2Proof

/-- Four bits from position `k` up are a hexadecimal digit of the number: the shape of `family`, `x`, `y` and `n`. -/
theorem val_nibbleAt (w : Word) (k : Nat) : ((w.extractLsb' k 4).toFin : Fin 16).val = w.toNat / 2 ^ k % 16 := by
  rw [BitVec.val_toFin, BitVec.extractLsb'_toNat, Nat.shiftRight_eq_div_pow]

/-- The top digit: it needs no remainder, for a word is below 16 * 4096. -/
theorem family_val (w : Word) : (family w).val = w.toNat / 4096 := by
  have hw : w.toNat < 65536 := w.isLt
  have hdigit : (family w).val = w.toNat / 4096 % 16 := val_nibbleAt w 12
  omega

theorem fieldX_val (w : Word) : (fieldX w).val = w.toNat / 256 % 16 := val_nibbleAt w 8

theorem fieldY_val (w : Word) : (fieldY w).val = w.toNat / 16 % 16 := val_nibbleAt w 4

theorem fieldN_val (w : Word) : (fieldN w).val = w.toNat % 16 := by
  rw [← Nat.div_one w.toNat]
  exact val_nibbleAt w 0

theorem fieldKk_toNat (w : Word) : (fieldKk w).toNat = w.toNat % 256 := BitVec.extractLsb'_toNat 0 8 w

theorem fieldNnn_toNat (w : Word) : (fieldNnn w).toNat = w.toNat % 4096 := BitVec.extractLsb'_toNat 0 12 w

/-- Settles O1: each field by its own lemma. -/
theorem fieldsAreBitsOfTheWord : Obligations.FieldsAreBitsOfTheWord := fun w =>
  ⟨family_val w, fieldX_val w, fieldY_val w, fieldN_val w, fieldKk_toNat w, fieldNnn_toNat w⟩

end Sys2Proof
end

section
/-! PROOFS. The frames as rules: what each single update of the state leaves unchanged, and how frames compose. -/

namespace Sys2Proof.Claims

open Sys2Proof Sys2Proof.Machine

/-- An element keeps its value over two updates that both keep it. -/
theorem Elem.same.trans {s t u : State} {e : Elem} (hst : e.same s t) (htu : e.same t u) : e.same s u := by
  cases e <;> exact Eq.trans htu hst

/-- Two frames one after the other: what either names may have changed. -/
theorem Only.trans {as bs : List Elem} {s t u : State} (hst : Only as s t) (htu : Only bs t u) :
    Only (as ++ bs) s u := fun e he =>
  (hst e fun h => he (List.mem_append_left _ h)).trans (htu e fun h => he (List.mem_append_right _ h))

/-- A frame that names more says less. -/
theorem Only.mono {as bs : List Elem} {s t : State} (h : Only as s t) (hsub : as ⊆ bs) : Only bs s t := fun e he =>
  h e fun hmem => he (hsub hmem)

theorem only_setReg (s : State) (x : Reg) (b : Byte) : Only [.reg x] s (s.setReg x b) := by
  intro e he
  cases e
  case reg y => exact s.setReg_reg_ne (fun hyx => he (by simp [hyx])) b
  all_goals exact rfl

theorem only_setKey (s : State) (k : Reg) (b : Bool) : Only [.key k] s (s.setKey k b) := by
  intro e he
  cases e
  case key j =>
    have hjk : j ≠ k := fun hjk => he (by simp [hjk])
    exact (s.setKey_keyDown k j b).trans (if_neg hjk)
  all_goals exact rfl

theorem only_setRunState (s : State) (r : RunState) : Only [.runState] s (s.setRunState r) := by
  intro e he
  cases e
  case runState => exact absurd (List.mem_singleton_self _) he
  all_goals exact rfl

end Sys2Proof.Claims
end

section
/-! PROOFS. The host calls (R330): what each of them did, if it was performed. -/

namespace Sys2Proof.Machine

/-- A load that is performed writes its bytes and sets PC (R355). -/
theorem eq_of_insertProgram_ok {bytes : List Byte} {s t : State} (h : insertProgram bytes s = .ok t) :
    t = (s.setMem (s.mem.writeAll Config.progStart bytes)).setPc (BitVec.ofNat 16 Config.progStart) := by
  unfold insertProgram Memory.loadBulk at h
  split_ifs at h
  cases h
  rfl

/-- A key-down that is performed is one of the 16 keys; it sets the key, then resolves a wait (R331). -/
theorem eq_of_setKeyDown_ok {k : Nat} {s t : State} (h : setKeyDown k s = .ok t) :
    ∃ j : Reg, k = j.val ∧ t = resolveWait j (s.setKey j true) := by
  unfold setKeyDown at h
  split at h
  · next hk => exact ⟨⟨k, hk⟩, rfl, (Except.ok.inj h).symm⟩
  · cases h

/-- A key-up that is performed is one of the 16 keys, and clears it (R332). -/
theorem eq_of_setKeyUp_ok {k : Nat} {s t : State} (h : setKeyUp k s = .ok t) :
    ∃ j : Reg, k = j.val ∧ t = s.setKey j false := by
  unfold setKeyUp at h
  split at h
  · next hk => exact ⟨⟨k, hk⟩, rfl, (Except.ok.inj h).symm⟩
  · cases h

theorem HostResult.ofExcept_eq_done {r : Except HostError State} {t : State} :
    HostResult.ofExcept r = .done t ↔ r = .ok t := by
  cases r <;> simp [HostResult.ofExcept]

/-- A `Cycle` call that is performed leaves the next state of `cycle`. -/
theorem HostCall.run_cycle_eq_done {s t : State} (h : HostCall.cycle.run s = .done t) :
    Machine.cycle s = .next t := by
  simp only [HostCall.run] at h
  split at h
  · next hnext => rwa [← HostResult.done.inj h]
  all_goals cases h

end Sys2Proof.Machine
end

section
/-! PROOFS. The Halted state (R37): what runs in it, and what ends it. -/

namespace Sys2Proof.Machine

variable {s : State} {x : Reg}

theorem cycle_of_halted (hs : s.runState = .halted x) : cycle s = .next s := by
  simp only [cycle, hs]

theorem step_of_halted (hs : s.runState = .halted x) : step s = .next s := by
  simp only [step, hs]

theorem resolveWait_of_halted (hs : s.runState = .halted x) (k : Reg) :
    resolveWait k s = (s.setReg x (BitVec.ofNat 8 k.val)).setRunState .running := by
  simp only [resolveWait, hs]

/-- A byte holds the number of a key. -/
theorem key_toNat (k : Reg) : (BitVec.ofNat 8 k.val).toNat = k.val :=
  (BitVec.toNat_ofNat _ _).trans (Nat.mod_eq_of_lt (by omega))

end Sys2Proof.Machine

namespace Sys2Proof.Claims

open Sys2Proof Sys2Proof.Machine

/-- What the end of a wait changes: the register it names, then RUNSTATE (R331). -/
theorem only_resolveWait_of_halted {s : State} {x : Reg} (hs : s.runState = .halted x) (k : Reg) :
    Only [.reg x, .runState] s (resolveWait k s) := by
  rw [resolveWait_of_halted hs]
  exact (only_setReg s x _).trans (only_setRunState _ .running)

/-- A key-down in Halted(x): Running, with the key in V[x] and down, and nothing else changed (R331). -/
theorem keyDown_of_halted {s : State} {x : Reg} (hs : s.runState = .halted x) (k : Reg) :
    (resolveWait k (s.setKey k true)).runState = .running ∧
    ((resolveWait k (s.setKey k true)).reg x).toNat = k.val ∧
    Only [.runState, .reg x, .key k] s (resolveWait k (s.setKey k true)) := by
  have hkey : (s.setKey k true).runState = .halted x := hs
  refine ⟨?running, ?reg, ?frame⟩
  case running => rw [resolveWait_of_halted hkey, State.setRunState_runState]
  case reg => rw [resolveWait_of_halted hkey, State.setRunState_reg, State.setReg_reg_self, key_toNat]
  case frame =>
    exact ((only_setKey s k true).trans (only_resolveWait_of_halted hkey k)).mono (by simp)

/-- Settles O49, by the host call: a load and a key-up leave RUNSTATE alone, a `Cycle` changes nothing, and a key-down
resolves the wait. -/
theorem haltedWaitsForKeyDown : Obligations.HaltedWaitsForKeyDown := by
  intro s x hs
  refine ⟨cycle_of_halted hs, step_of_halted hs, fun c t hrun => ?_⟩
  cases c with
  | insertProgram bytes =>
    rw [eq_of_insertProgram_ok (HostResult.ofExcept_eq_done.1 hrun)]
    exact .inl hs
  | cycle =>
    have hcycle := HostCall.run_cycle_eq_done hrun
    rw [cycle_of_halted hs] at hcycle
    cases hcycle
    exact .inl hs
  | setKeyDown k =>
    obtain ⟨j, rfl, rfl⟩ := eq_of_setKeyDown_ok (HostResult.ofExcept_eq_done.1 hrun)
    exact .inr ⟨j, rfl, keyDown_of_halted hs j⟩
  | setKeyUp k =>
    obtain ⟨j, rfl, rfl⟩ := eq_of_setKeyUp_ok (HostResult.ofExcept_eq_done.1 hrun)
    exact .inl hs

end Sys2Proof.Claims
end

section
/-! PROOFS. The skips (R130): one rule for every instruction that skips on a condition. -/

namespace Sys2Proof.Claims

open Sys2Proof Sys2Proof.Machine

theorem only_setPc (s : State) (a : Word) : Only [.pc] s (s.setPc a) := by
  intro e he
  cases e
  case pc => exact absurd (List.mem_singleton_self _) he
  all_goals exact rfl

theorem only_skipIf (s : State) (c : Bool) : Only [.pc] s (s.skipIf c) := by
  rw [State.skipIf_eq]
  exact only_setPc s _

theorem skipIf_pc_toNat (s : State) (c : Bool) :
    (s.skipIf c).pc.toNat = if c then (s.pc.toNat + 2) % 65536 else s.pc.toNat := by
  rw [State.skipIf_pc, apply_ite BitVec.toNat, BitVec.toNat_add]
  rfl

/-- What a skip on the test `c` does, said with the condition `p` that the test decides. -/
theorem completes_skipIf (s : State) {c : Bool} {p : Prop} [Decidable p] (hc : c = true ↔ p) :
    Completes (.next (s.skipIf c)) fun t =>
      t.pc.toNat = (if p then (s.pc.toNat + 2) % 65536 else s.pc.toNat) ∧ Only [.pc] s t := by
  refine ⟨s.skipIf c, rfl, ?_, only_skipIf s c⟩
  simp only [skipIf_pc_toNat, hc]

/-- The test of the skips on equality compares unsigned values. -/
theorem byte_beq_iff_toNat (a b : Byte) : (a == b) = true ↔ a.toNat = b.toNat :=
  beq_iff_eq.trans BitVec.toNat_inj.symm

/-- The test of the skips on inequality compares unsigned values. -/
theorem byte_bne_iff_toNat (a b : Byte) : (a != b) = true ↔ a.toNat ≠ b.toNat :=
  bne_iff_ne.trans BitVec.toNat_inj.symm.not

theorem exec_seImm (x : Reg) (kk : Byte) (s : State) :
    exec (.seImm x kk) s = .next (s.skipIf (s.reg x == kk)) := rfl

theorem exec_sneImm (x : Reg) (kk : Byte) (s : State) :
    exec (.sneImm x kk) s = .next (s.skipIf (s.reg x != kk)) := rfl

/-- Settles O20: the word by its layout, the answer by the rule for a skip with each instruction's test. -/
theorem skipsOnImmediate : Obligations.SkipsOnImmediate := by
  intro x kk s
  rw [exec_seImm, exec_sneImm]
  exact ⟨⟨packXkk_toNat 0x3 x kk, completes_skipIf s (byte_beq_iff_toNat _ _)⟩,
    ⟨packXkk_toNat 0x4 x kk, completes_skipIf s (byte_bne_iff_toNat _ _)⟩⟩

end Sys2Proof.Claims
end

section
/-! PROOFS. The register file and the ALU (spec/42_alu.md): the words of family 8, the value of each flag, one rule for
the instructions that write V[x] alone and one for those that write V[x], then VF (R23, R160). -/

namespace Sys2Proof

/-- The words `8xyn`, with the selector `n` beside the family digit as R83 writes them. -/
theorem packXyn_eight_toNat (x y : Reg) (n : BitVec 4) :
    (packXyn 0x8 x y n).toNat = 0x8000 + n.toNat + x.val * 256 + y.val * 16 := by
  have hword : (packXyn 0x8 x y n).toNat = 8 * 4096 + x.val * 256 + y.val * 16 + n.toNat := packXyn_toNat 0x8 x y n
  omega

end Sys2Proof

namespace Sys2Proof.Claims

open Sys2Proof Sys2Proof.Machine

/-! ## The flags as numbers -/

theorem flagByte_toNat (c : Bool) : (flagByte c).toNat = c.toNat := by
  cases c <;> rfl

theorem flagByte_decide_toNat (p : Prop) [Decidable p] : (flagByte (decide p)).toNat = flagNat p := by
  unfold flagNat
  split
  · next hp => rw [decide_eq_true hp]; rfl
  · next hp => rw [decide_eq_false hp]; rfl

/-- The carry of `8xy4` (R168). -/
theorem carryFlag_toNat (a b : Byte) : (flagByte (carryFlag a b)).toNat = flagNat (a.toNat + b.toNat > 255) :=
  flagByte_decide_toNat _

/-- The strict comparison of `8xy5` and `8xy7` (R169, R171). -/
theorem greaterFlag_toNat (a b : Byte) : (flagByte (greaterFlag a b)).toNat = flagNat (a.toNat > b.toNat) :=
  flagByte_decide_toNat _

/-- A bit of a byte as a flag is a binary digit of the byte's number. -/
theorem flagByte_getLsbD_toNat (a : Byte) (k : Nat) : (flagByte (a.getLsbD k)).toNat = a.toNat / 2 ^ k % 2 := by
  rw [flagByte_toNat, BitVec.getLsbD, Nat.toNat_testBit]

/-- The bit that `8xy6` shifts out (R170). -/
theorem lowBitFlag_toNat (a : Byte) : (flagByte (lowBitFlag a)).toNat = a.toNat % 2 :=
  (flagByte_getLsbD_toNat a 0).trans (by rw [pow_zero, Nat.div_one])

/-- The bit that `8xyE` shifts out: the top one, so its digit needs no remainder (R172). -/
theorem highBitFlag_toNat (a : Byte) : (flagByte (highBitFlag a)).toNat = a.toNat / 128 := by
  have ha : a.toNat < 256 := a.isLt
  have hdigit : (flagByte (highBitFlag a)).toNat = a.toNat / 128 % 2 := flagByte_getLsbD_toNat a 7
  omega

/-! ## The results as numbers -/

theorem byte_sub_toNat (a b : Byte) : (a - b).toNat = (a.toNat + 256 - b.toNat) % 256 := by
  have hb : b.toNat < 256 := b.isLt
  have hsub : (a - b).toNat = (256 - b.toNat + a.toNat) % 256 := BitVec.toNat_sub a b
  omega

theorem byte_shiftRight_one_toNat (a : Byte) : (a >>> 1).toNat = a.toNat / 2 := by
  rw [BitVec.toNat_ushiftRight, Nat.shiftRight_one]

theorem byte_shiftLeft_one_toNat (a : Byte) : (a <<< 1).toNat = a.toNat * 2 % 256 := by
  rw [BitVec.toNat_shiftLeft, Nat.shiftLeft_eq, pow_one]

/-! ## What is written and what is kept -/

theorem only_setRegFlag (s : State) (x : Reg) (b : Byte) (c : Bool) :
    Only [.reg x, .reg vf] s (s.setRegFlag x b c) :=
  (only_setReg s x b).trans (only_setReg _ vf (flagByte c))

/-- An instruction that writes `b` to V[x], and no flag. -/
theorem completes_setReg (s : State) (x : Reg) {b : Byte} (p : Byte → Prop) (hb : p b) :
    Completes (.next (s.setReg x b)) fun t => p (t.reg x) ∧ Only [.reg x] s t :=
  ⟨s.setReg x b, rfl, by rwa [State.setReg_reg_self], only_setReg s x b⟩

/-- An instruction that writes `b` to V[x], then the flag `c` to VF, which keeps it when x = 0xF (R23, R160). -/
theorem completes_setRegFlag (s : State) (x : Reg) {b : Byte} {c : Bool} {flag result : Nat}
    (hc : (flagByte c).toNat = flag) (hb : b.toNat = result) :
    Completes (.next (s.setRegFlag x b c)) fun t =>
      (t.reg vf).toNat = flag ∧ (x ≠ vf → (t.reg x).toNat = result) ∧ Only [.reg x, .reg vf] s t := by
  refine ⟨s.setRegFlag x b c, rfl, ?flag, ?result, only_setRegFlag s x b c⟩
  case flag => rw [State.setRegFlag_reg_vf, hc]
  case result =>
    intro hx
    rw [State.setRegFlag_reg, if_neg hx, if_pos rfl, hb]

/-! ## The instructions -/

theorem exec_ldImm (x : Reg) (kk : Byte) (s : State) : exec (.ldImm x kk) s = .next (s.setReg x kk) := rfl

theorem exec_addImm (x : Reg) (kk : Byte) (s : State) :
    exec (.addImm x kk) s = .next (s.setReg x (s.reg x + kk)) := rfl

theorem exec_ldReg (x y : Reg) (s : State) : exec (.ldReg x y) s = .next (s.setReg x (s.reg y)) := rfl

theorem exec_addReg (x y : Reg) (s : State) :
    exec (.addReg x y) s = .next (s.setRegFlag x (s.reg x + s.reg y) (carryFlag (s.reg x) (s.reg y))) := rfl

theorem exec_subReg (x y : Reg) (s : State) :
    exec (.subReg x y) s = .next (s.setRegFlag x (s.reg x - s.reg y) (greaterFlag (s.reg x) (s.reg y))) := rfl

theorem exec_subnReg (x y : Reg) (s : State) :
    exec (.subnReg x y) s = .next (s.setRegFlag x (s.reg y - s.reg x) (greaterFlag (s.reg y) (s.reg x))) := rfl

theorem exec_shr (x y : Reg) (s : State) :
    exec (.shr x y) s = .next (s.setRegFlag x (s.reg x >>> 1) (lowBitFlag (s.reg x))) := rfl

theorem exec_shl (x y : Reg) (s : State) :
    exec (.shl x y) s = .next (s.setRegFlag x (s.reg x <<< 1) (highBitFlag (s.reg x))) := rfl

/-- Settles O7, by the rule for a write of V[x] alone. -/
theorem loadImmediate : Obligations.LoadImmediate := by
  intro x kk s
  rw [exec_ldImm]
  exact ⟨packXkk_toNat 0x6 x kk, completes_setReg s x (· = kk) rfl⟩

/-- Settles O8: the sum of bytes is the sum of their numbers modulo 256, and no flag is written. -/
theorem addImmediateSetsNoFlag : Obligations.AddImmediateSetsNoFlag := by
  intro x kk s
  have hsum : (s.reg x + kk).toNat = ((s.reg x).toNat + kk.toNat) % 256 := BitVec.toNat_add (s.reg x) kk
  rw [exec_addImm]
  exact ⟨packXkk_toNat 0x7 x kk, completes_setReg s x (·.toNat = _) hsum⟩

/-- Settles O9, by the rule for a write of V[x] alone. -/
theorem copyRegister : Obligations.CopyRegister := by
  intro x y s
  rw [exec_ldReg]
  exact ⟨packXyn_eight_toNat x y 0x0, completes_setReg s x (· = s.reg y) rfl⟩

/-- Settles O11, by the rule for a result and its flag. -/
theorem addRegistersSetsCarry : Obligations.AddRegistersSetsCarry := by
  intro x y s
  rw [exec_addReg]
  exact ⟨packXyn_eight_toNat x y 0x4, completes_setRegFlag s x (carryFlag_toNat _ _) (BitVec.toNat_add _ _)⟩

/-- Settles O12, by the rule for a result and its flag, the minuend being V[x]. -/
theorem subtractRegistersSetsStrictFlag : Obligations.SubtractRegistersSetsStrictFlag := by
  intro x y s
  rw [exec_subReg]
  exact ⟨packXyn_eight_toNat x y 0x5, completes_setRegFlag s x (greaterFlag_toNat _ _) (byte_sub_toNat _ _)⟩

/-- Settles O13, by the rule for a result and its flag, the minuend being V[y]. -/
theorem reverseSubtractSetsStrictFlag : Obligations.ReverseSubtractSetsStrictFlag := by
  intro x y s
  rw [exec_subnReg]
  exact ⟨packXyn_eight_toNat x y 0x7, completes_setRegFlag s x (greaterFlag_toNat _ _) (byte_sub_toNat _ _)⟩

/-- Settles O14: neither shift's answer names y, and the digit shifted out is the lowest or the highest. -/
theorem shiftsTakeVxOnly : Obligations.ShiftsTakeVxOnly := by
  intro x y s
  rw [exec_shr, exec_shl]
  exact ⟨⟨packXyn_eight_toNat x y 0x6,
      completes_setRegFlag s x (lowBitFlag_toNat _) (byte_shiftRight_one_toNat _)⟩,
    ⟨packXyn_eight_toNat x y 0xE,
      completes_setRegFlag s x (highBitFlag_toNat _) (byte_shiftLeft_one_toNat _)⟩⟩

end Sys2Proof.Claims
end

section
/-! PROOFS. The index register (spec/43_index_memory.md): one rule for the instructions that write I alone. -/

namespace Sys2Proof.Claims

open Sys2Proof Sys2Proof.Machine

theorem only_setI (s : State) (a : Word) : Only [.i] s (s.setI a) := by
  intro e he
  cases e
  case i => exact absurd (List.mem_singleton_self _) he
  all_goals exact rfl

/-- An instruction that writes `a` to I, and nothing else. -/
theorem completes_setI (s : State) {a : Word} {result : Nat} (ha : a.toNat = result) :
    Completes (.next (s.setI a)) fun t => t.i.toNat = result ∧ Only [.i] s t :=
  ⟨s.setI a, rfl, by rwa [State.setI_i], only_setI s a⟩

/-- A 12-bit operand keeps its number as a word. -/
theorem addrOperand_toNat (nnn : Addr12) : (addrOperand nnn).toNat = nnn.toNat :=
  BitVec.toNat_setWidth_of_le (by decide)

theorem exec_ldI (nnn : Addr12) (s : State) : exec (.ldI nnn) s = .next (s.setI (addrOperand nnn)) := rfl

/-- Settles O23, by the rule for a write of I alone. -/
theorem loadIndex : Obligations.LoadIndex := by
  intro nnn s
  rw [exec_ldI]
  exact ⟨packNnn_toNat 0xA nnn, completes_setI s (addrOperand_toNat nnn)⟩

end Sys2Proof.Claims
end

section
/-! PROOFS. The display (spec/44_display.md): what a write of the framebuffer leaves unchanged, and the clear screen. -/

namespace Sys2Proof.Claims

open Sys2Proof Sys2Proof.Machine

/-- A framebuffer write may change cells and DIRTY, and nothing else (R34). -/
theorem frame_setFb (s : State) (fb : Framebuffer) :
    Frame (fun e => e = .dirty ∨ ∃ r c, e = .cell r c) s (s.setFb fb) := by
  intro e he
  cases e
  case dirty => exact absurd (.inl rfl) he
  case cell r c => exact absurd (.inr ⟨r, c, rfl⟩) he
  all_goals exact rfl

theorem exec_cls (s : State) : exec .cls s = .next (s.setFb Framebuffer.clear) := rfl

/-- Settles O31: `00E0` writes the clear framebuffer, and a framebuffer write sets DIRTY and keeps the rest. -/
theorem clearScreen : Obligations.ClearScreen := by
  intro s
  rw [exec_cls]
  exact ⟨rfl, s.setFb Framebuffer.clear, rfl, Framebuffer.cell_clear, State.setFb_dirty s Framebuffer.clear,
    frame_setFb s Framebuffer.clear⟩

end Sys2Proof.Claims
end

section
/-! PROOFS. The encoder and the decoder undo each other (spec/30_encoding.md R81 to R85). One way, the decoder reads back
the fields that the encoder packs; the other way, packing the fields of a word in the layout of its row gives the word. -/

namespace Sys2Proof

/-! ## Decoding what is encoded -/

theorem decodeFamily8_packNnn {low : Addr12} (h : (Instr.nop8 low).wellFormed = true) :
    decodeFamily8 (packNnn 0x8 low) = .nop8 low := by
  have hlow : lowNibble low ∈ unlisted8 := List.contains_iff_mem.1 h
  simp only [unlisted8, List.mem_cons, List.not_mem_nil, or_false] at hlow
  simp only [decodeFamily8, fieldN_packNnn, fieldNnn_packNnn]
  rcases hlow with hlow | hlow | hlow | hlow | hlow | hlow | hlow <;> rw [hlow] <;> rfl

theorem decodeFamilyE_packNnn {low : Addr12} (h : (Instr.nopE low).wellFormed = true) :
    decodeFamilyE (packNnn 0xE low) = .nopE low := by
  have hlow : lowByte low ∉ listedE := by simpa [Instr.wellFormed] using h
  simp only [listedE, List.mem_cons, List.not_mem_nil, or_false, not_or] at hlow
  simp only [decodeFamilyE, fieldKk_packNnn, fieldNnn_packNnn, hlow, if_false]

theorem decodeFamilyF_packNnn {low : Addr12} (h : (Instr.nopF low).wellFormed = true) :
    decodeFamilyF (packNnn 0xF low) = .nopF low := by
  have hlow : lowByte low ∉ listedF := by simpa [Instr.wellFormed] using h
  simp only [listedF, List.mem_cons, List.not_mem_nil, or_false, not_or] at hlow
  simp only [decodeFamilyF, fieldKk_packNnn, fieldNnn_packNnn, hlow, if_false]

/-- The low nibble of a fallback row of family 5 or 9 is not the one that selects the exact row. -/
theorem fieldN_packNnn_ne_zero {low : Addr12} (h : (lowNibble low != 0) = true) (f : BitVec 4) :
    fieldN (packNnn f low) ≠ 0 := fun hn =>
  bne_iff_ne.1 h (toFin_inj ((fieldN_packNnn f low).symm.trans hn))

/-- The exact rows read back their fields; a fallback row is what is left, for its bits select no exact row (R85). -/
theorem decodeWord_encode {i : Instr} (h : i.wellFormed = true) : decodeWord (encode i) = i := by
  cases i
  case cls => rfl
  case ret => rfl
  case sys nnn =>
    have hnnn : nnn ≠ 0x0E0 ∧ nnn ≠ 0x0EE := by simpa [Instr.wellFormed] using h
    have hdecode : decodeFamily0 (packNnn 0x0 nnn) = .sys nnn := by
      simp only [decodeFamily0, fieldNnn_packNnn, hnnn, if_false]
    simp only [encode, decodeWord, family_packNnn]
    exact hdecode
  case nop5 low =>
    simp only [encode, decodeWord, family_packNnn, fieldNnn_packNnn]
    exact if_neg (fieldN_packNnn_ne_zero h 0x5)
  case nop8 low =>
    simp only [encode, decodeWord, family_packNnn]
    exact decodeFamily8_packNnn h
  case nop9 low =>
    simp only [encode, decodeWord, family_packNnn, fieldNnn_packNnn]
    exact if_neg (fieldN_packNnn_ne_zero h 0x9)
  case nopE low =>
    simp only [encode, decodeWord, family_packNnn]
    exact decodeFamilyE_packNnn h
  case nopF low =>
    simp only [encode, decodeWord, family_packNnn]
    exact decodeFamilyF_packNnn h
  all_goals
    simp only [encode, decodeWord, family_packNnn, fieldNnn_packNnn, family_packXkk, fieldX_packXkk, fieldKk_packXkk,
      family_packXyn, fieldX_packXyn, fieldY_packXyn, fieldN_packXyn, decodeFamily8, decodeFamilyE, decodeFamilyF]
    rfl

theorem decodeBytes_bytesOfWord (w : Word) (rest : List Byte) :
    decodeBytes (bytesOfWord w ++ rest) = .ok (decodeWord w, rest) := by
  have hdecode : decodeBytes (bytesOfWord w ++ rest) =
      .ok (decodeWord (wordOfBytes (w.extractLsb' 8 8) (w.extractLsb' 0 8)), rest) := rfl
  rw [hdecode, wordOfBytes_bytesOfWord]

/-- Settles O3: the decoder reads the fields back, and a program holds the word as its two bytes. -/
theorem decodeOfEncodeIsTheInstruction : Obligations.DecodeOfEncodeIsTheInstruction := by
  intro i rest h
  refine ⟨decodeWord_encode h, ?bytes⟩
  case bytes => rw [encodeBytes, decodeBytes_bytesOfWord, decodeWord_encode h]

/-! ## Encoding what is decoded -/

variable {w : Word}

theorem packNnn_fields {f : BitVec 4} (hf : family w = f.toFin) : packNnn f (fieldNnn w) = w := by
  have hfamily : w.toNat / 4096 = f.toNat := (family_val w).symm.trans (congrArg Fin.val hf)
  apply BitVec.eq_of_toNat_eq
  rw [packNnn_toNat, fieldNnn_toNat]
  omega

theorem packXkk_fields {f : BitVec 4} (hf : family w = f.toFin) : packXkk f (fieldX w) (fieldKk w) = w := by
  have hfamily : w.toNat / 4096 = f.toNat := (family_val w).symm.trans (congrArg Fin.val hf)
  apply BitVec.eq_of_toNat_eq
  rw [packXkk_toNat, fieldX_val, fieldKk_toNat]
  omega

theorem packXyn_fields {f n : BitVec 4} (hf : family w = f.toFin) (hn : fieldN w = n.toFin) :
    packXyn f (fieldX w) (fieldY w) n = w := by
  have hfamily : w.toNat / 4096 = f.toNat := (family_val w).symm.trans (congrArg Fin.val hf)
  have hnibble : w.toNat % 16 = n.toNat := (fieldN_val w).symm.trans (congrArg Fin.val hn)
  apply BitVec.eq_of_toNat_eq
  rw [packXyn_toNat, fieldX_val, fieldY_val]
  omega

/-- The layout family, x, kk with the byte that selects the row. -/
theorem packXkk_fields_of_eq {f : BitVec 4} {kk : Byte} (hf : family w = f.toFin) (hkk : fieldKk w = kk) :
    packXkk f (fieldX w) kk = w := hkk ▸ packXkk_fields hf

theorem lowNibble_fieldNnn (w : Word) : lowNibble (fieldNnn w) = nib (fieldN w) := by
  apply BitVec.eq_of_toNat_eq
  rw [lowNibble, BitVec.extractLsb'_toNat, fieldNnn_toNat, nib_toNat, fieldN_val, Nat.shiftRight_zero]
  omega

theorem lowByte_fieldNnn (w : Word) : lowByte (fieldNnn w) = fieldKk w := by
  apply BitVec.eq_of_toNat_eq
  rw [lowByte, BitVec.extractLsb'_toNat, fieldNnn_toNat, fieldKk_toNat, Nat.shiftRight_zero]
  omega

theorem lowNibble_fieldNnn_ne_zero (h : fieldN w ≠ 0) : (lowNibble (fieldNnn w) != 0) = true := by
  rw [lowNibble_fieldNnn]
  exact bne_iff_ne.2 fun hn => h (congrArg BitVec.toFin hn)

/-- What a decoder arm has to answer for the word `w`: a well-formed instruction whose word it is. -/
def IsReadingOf (w : Word) (i : Instr) : Prop := i.wellFormed = true ∧ encode i = w

theorem isReadingOf_decodeFamily0 (hf : family w = 0) : IsReadingOf w (decodeFamily0 w) := by
  have hword : packNnn 0x0 (fieldNnn w) = w := packNnn_fields hf
  unfold decodeFamily0
  split_ifs with hcls hret
  · exact ⟨rfl, by rw [← hword, hcls]; rfl⟩
  · exact ⟨rfl, by rw [← hword, hret]; rfl⟩
  · exact ⟨by simp_all [Instr.wellFormed], hword⟩

theorem isReadingOf_decodeFamily8 (hf : family w = 8) : IsReadingOf w (decodeFamily8 w) := by
  unfold decodeFamily8
  split
  case h_10 =>
    have hunlisted : ∀ n : Fin 16, n ∈ [0x0, 0x1, 0x2, 0x3, 0x4, 0x5, 0x6, 0x7, 0xE] ∨
        unlisted8.contains (nib n) = true := by decide
    refine ⟨?_, packNnn_fields hf⟩
    rw [Instr.wellFormed, lowNibble_fieldNnn]
    exact (hunlisted (fieldN w)).resolve_left (by simp_all)
  all_goals exact ⟨rfl, packXyn_fields hf ‹_›⟩

theorem isReadingOf_decodeFamilyE (hf : family w = 0xE) : IsReadingOf w (decodeFamilyE w) := by
  unfold decodeFamilyE
  split_ifs
  case neg => exact ⟨by simp_all [Instr.wellFormed, lowByte_fieldNnn, listedE], packNnn_fields hf⟩
  all_goals exact ⟨rfl, packXkk_fields_of_eq hf ‹_›⟩

theorem isReadingOf_decodeFamilyF (hf : family w = 0xF) : IsReadingOf w (decodeFamilyF w) := by
  unfold decodeFamilyF
  split_ifs
  case neg => exact ⟨by simp_all [Instr.wellFormed, lowByte_fieldNnn, listedF], packNnn_fields hf⟩
  all_goals exact ⟨rfl, packXkk_fields_of_eq hf ‹_›⟩

theorem isReadingOf_decodeWord (w : Word) : IsReadingOf w (decodeWord w) := by
  unfold decodeWord
  split
  case h_1 hf => exact isReadingOf_decodeFamily0 hf
  case h_2 hf => exact ⟨rfl, packNnn_fields hf⟩
  case h_3 hf => exact ⟨rfl, packNnn_fields hf⟩
  case h_4 hf => exact ⟨rfl, packXkk_fields hf⟩
  case h_5 hf => exact ⟨rfl, packXkk_fields hf⟩
  case h_6 hf =>
    split_ifs with hn
    · exact ⟨rfl, packXyn_fields hf hn⟩
    · exact ⟨lowNibble_fieldNnn_ne_zero hn, packNnn_fields hf⟩
  case h_7 hf => exact ⟨rfl, packXkk_fields hf⟩
  case h_8 hf => exact ⟨rfl, packXkk_fields hf⟩
  case h_9 hf => exact isReadingOf_decodeFamily8 hf
  case h_10 hf =>
    split_ifs with hn
    · exact ⟨rfl, packXyn_fields hf hn⟩
    · exact ⟨lowNibble_fieldNnn_ne_zero hn, packNnn_fields hf⟩
  case h_11 hf => exact ⟨rfl, packNnn_fields hf⟩
  case h_12 hf => exact ⟨rfl, packNnn_fields hf⟩
  case h_13 hf => exact ⟨rfl, packXkk_fields hf⟩
  case h_14 hf => exact ⟨rfl, packXyn_fields hf rfl⟩
  case h_15 hf => exact isReadingOf_decodeFamilyE hf
  case h_16 =>
    have hlast : ∀ f : Fin 16, f ∈ [0x0, 0x1, 0x2, 0x3, 0x4, 0x5, 0x6, 0x7, 0x8, 0x9, 0xA, 0xB, 0xC, 0xD, 0xE] ∨
        f = 0xF := by decide
    exact isReadingOf_decodeFamilyF ((hlast (family w)).resolve_left (by simp_all))

/-- Settles O4, family by family. -/
theorem encodeOfDecodeIsTheWord : Obligations.EncodeOfDecodeIsTheWord := isReadingOf_decodeWord

end Sys2Proof
end

section
/-! PROOFS. The opcode map (spec/30_encoding.md R83 to R85): the word of an instruction that is not a fallback is selected
by the row of its mnemonic, no word is selected by two rows, and the word of a fallback by none. -/

namespace Sys2Proof

/-! ## The rows that select a packed word -/

theorem selects_packXyn (f : BitVec 4) (x y : Reg) (n : BitVec 4) (name : String) :
    OpcodeRow.selects ⟨name, packXyn f 0 0 n, 0xF00F⟩ (packXyn f x y n) = true := by
  have hand : (f ++ nib x ++ nib y ++ n) &&& (BitVec.allOnes 4 ++ 0#4 ++ 0#4 ++ BitVec.allOnes 4) =
      f ++ 0#4 ++ 0#4 ++ n := by
    simp only [BitVec.and_append, BitVec.and_allOnes, BitVec.and_zero]
  exact beq_iff_eq.2 hand

theorem selects_packXkk (f : BitVec 4) (x : Reg) (kk : Byte) (name : String) :
    OpcodeRow.selects ⟨name, packXkk f 0 kk, 0xF0FF⟩ (packXkk f x kk) = true := by
  have hand : (f ++ nib x ++ kk) &&& (BitVec.allOnes 4 ++ 0#4 ++ BitVec.allOnes 8) = f ++ 0#4 ++ kk := by
    simp only [BitVec.and_append, BitVec.and_allOnes, BitVec.and_zero]
  exact beq_iff_eq.2 hand

theorem selects_packNnn (f : BitVec 4) (nnn : Addr12) (name : String) :
    OpcodeRow.selects ⟨name, packNnn f 0, 0xF000⟩ (packNnn f nnn) = true := by
  have hand : (f ++ nnn) &&& (BitVec.allOnes 4 ++ 0#12) = f ++ 0#12 := by
    simp only [BitVec.and_append, BitVec.and_allOnes, BitVec.and_zero]
  exact beq_iff_eq.2 hand

/-- A row that fixes the family alone, for a word written with x and kk. -/
theorem selects_packXkk_family (f : BitVec 4) (x : Reg) (kk : Byte) (name : String) :
    OpcodeRow.selects ⟨name, packNnn f 0, 0xF000⟩ (packXkk f x kk) = true := by
  have hword : packNnn f (fieldNnn (packXkk f x kk)) = packXkk f x kk := packNnn_fields (family_packXkk f x kk)
  exact hword ▸ selects_packNnn f _ name

/-- A row that fixes the family alone, for a word written with x, y and n. -/
theorem selects_packXyn_family (f : BitVec 4) (x y : Reg) (n : BitVec 4) (name : String) :
    OpcodeRow.selects ⟨name, packNnn f 0, 0xF000⟩ (packXyn f x y n) = true := by
  have hword : packNnn f (fieldNnn (packXyn f x y n)) = packXyn f x y n := packNnn_fields (family_packXyn f x y n)
  exact hword ▸ selects_packNnn f _ name

/-! ## The row of an instruction -/

/-- The instructions of the fallback rows (R290, R291). -/
def Instr.isFallback : Instr → Bool
  | .sys _ | .nop5 _ | .nop8 _ | .nop9 _ | .nopE _ | .nopF _ => true
  | _ => false

/-- An exact row has the mnemonic of the instruction and selects its word. -/
def HasRow (i : Instr) : Prop := ∃ r ∈ exactRows, r.mnemonic = i.mnemonic ∧ r.selects (encode i) = true

/-- The row numbered `k` in the order of R83. -/
theorem hasRow_of_getElem? {i : Instr} {r : OpcodeRow} (k : Nat) (hrow : exactRows[k]? = some r)
    (hname : r.mnemonic = i.mnemonic) (hselects : r.selects (encode i) = true) : HasRow i :=
  ⟨r, List.mem_of_getElem? hrow, hname, hselects⟩

theorem hasRow_of_not_isFallback {i : Instr} (h : i.isFallback = false) : HasRow i := by
  cases i
  case cls => exact hasRow_of_getElem? 0 rfl rfl rfl
  case ret => exact hasRow_of_getElem? 1 rfl rfl rfl
  case jp nnn => exact hasRow_of_getElem? 2 rfl rfl (selects_packNnn 0x1 nnn _)
  case call nnn => exact hasRow_of_getElem? 3 rfl rfl (selects_packNnn 0x2 nnn _)
  case seImm x kk => exact hasRow_of_getElem? 4 rfl rfl (selects_packXkk_family 0x3 x kk _)
  case sneImm x kk => exact hasRow_of_getElem? 5 rfl rfl (selects_packXkk_family 0x4 x kk _)
  case seReg x y => exact hasRow_of_getElem? 6 rfl rfl (selects_packXyn 0x5 x y 0x0 _)
  case ldImm x kk => exact hasRow_of_getElem? 7 rfl rfl (selects_packXkk_family 0x6 x kk _)
  case addImm x kk => exact hasRow_of_getElem? 8 rfl rfl (selects_packXkk_family 0x7 x kk _)
  case ldReg x y => exact hasRow_of_getElem? 9 rfl rfl (selects_packXyn 0x8 x y 0x0 _)
  case orReg x y => exact hasRow_of_getElem? 10 rfl rfl (selects_packXyn 0x8 x y 0x1 _)
  case andReg x y => exact hasRow_of_getElem? 11 rfl rfl (selects_packXyn 0x8 x y 0x2 _)
  case xorReg x y => exact hasRow_of_getElem? 12 rfl rfl (selects_packXyn 0x8 x y 0x3 _)
  case addReg x y => exact hasRow_of_getElem? 13 rfl rfl (selects_packXyn 0x8 x y 0x4 _)
  case subReg x y => exact hasRow_of_getElem? 14 rfl rfl (selects_packXyn 0x8 x y 0x5 _)
  case shr x y => exact hasRow_of_getElem? 15 rfl rfl (selects_packXyn 0x8 x y 0x6 _)
  case subnReg x y => exact hasRow_of_getElem? 16 rfl rfl (selects_packXyn 0x8 x y 0x7 _)
  case shl x y => exact hasRow_of_getElem? 17 rfl rfl (selects_packXyn 0x8 x y 0xE _)
  case sneReg x y => exact hasRow_of_getElem? 18 rfl rfl (selects_packXyn 0x9 x y 0x0 _)
  case ldI nnn => exact hasRow_of_getElem? 19 rfl rfl (selects_packNnn 0xA nnn _)
  case jpV0 nnn => exact hasRow_of_getElem? 20 rfl rfl (selects_packNnn 0xB nnn _)
  case rnd x kk => exact hasRow_of_getElem? 21 rfl rfl (selects_packXkk_family 0xC x kk _)
  case drw x y n => exact hasRow_of_getElem? 22 rfl rfl (selects_packXyn_family 0xD x y (nib n) _)
  case skp x => exact hasRow_of_getElem? 23 rfl rfl (selects_packXkk 0xE x 0x9E _)
  case sknp x => exact hasRow_of_getElem? 24 rfl rfl (selects_packXkk 0xE x 0xA1 _)
  case ldVxDt x => exact hasRow_of_getElem? 25 rfl rfl (selects_packXkk 0xF x 0x07 _)
  case ldVxK x => exact hasRow_of_getElem? 26 rfl rfl (selects_packXkk 0xF x 0x0A _)
  case ldDtVx x => exact hasRow_of_getElem? 27 rfl rfl (selects_packXkk 0xF x 0x15 _)
  case ldStVx x => exact hasRow_of_getElem? 28 rfl rfl (selects_packXkk 0xF x 0x18 _)
  case addI x => exact hasRow_of_getElem? 29 rfl rfl (selects_packXkk 0xF x 0x1E _)
  case ldF x => exact hasRow_of_getElem? 30 rfl rfl (selects_packXkk 0xF x 0x29 _)
  case ldB x => exact hasRow_of_getElem? 31 rfl rfl (selects_packXkk 0xF x 0x33 _)
  case storeRegs x => exact hasRow_of_getElem? 32 rfl rfl (selects_packXkk 0xF x 0x55 _)
  case loadRegs x => exact hasRow_of_getElem? 33 rfl rfl (selects_packXkk 0xF x 0x65 _)
  all_goals cases h

/-! ## The words of the fallback rows -/

/-- Where a mask keeps all bits of a field, the selected word has the field of the pattern. -/
theorem extract_eq_of_selects {r : OpcodeRow} {w : Word} (h : r.selects w = true) {k n : Nat}
    (hmask : r.mask.extractLsb' k n = BitVec.allOnes n) : w.extractLsb' k n = r.pattern.extractLsb' k n := by
  have hand : w &&& r.mask = r.pattern := beq_iff_eq.1 h
  rw [← hand, BitVec.extractLsb'_and, hmask, BitVec.and_allOnes]

/-- Every mask keeps the family. -/
theorem family_eq_of_selects {r : OpcodeRow} (hr : r ∈ exactRows) {w : Word} (h : r.selects w = true) :
    family r.pattern = family w := by
  have hmask : ∀ r ∈ exactRows, r.mask.extractLsb' 12 4 = BitVec.allOnes 4 := by decide
  exact congrArg BitVec.toFin (extract_eq_of_selects h (hmask r hr)).symm

theorem not_selects_sys {nnn : Addr12} (h : (Instr.sys nnn).wellFormed = true) {r : OpcodeRow} (hr : r ∈ exactRows) :
    r.selects (encode (.sys nnn)) = false := by
  have hrows : ∀ r ∈ exactRows, family r.pattern = 0x0 →
      r.mask.extractLsb' 0 12 = BitVec.allOnes 12 ∧ fieldNnn r.pattern ∈ [(0x0E0 : Addr12), 0x0EE] := by decide
  by_contra hsel
  have hsel := eq_true_of_ne_false hsel
  obtain ⟨hmask, hpattern⟩ := hrows r hr ((family_eq_of_selects hr hsel).trans (family_packNnn 0x0 nnn))
  have hnnn : nnn = fieldNnn r.pattern := (fieldNnn_packNnn 0x0 nnn).symm.trans (extract_eq_of_selects hsel hmask)
  rw [← hnnn] at hpattern
  simp_all [Instr.wellFormed]

/-- Families 5, 8 and 9: the rows of the family differ in the low nibble, and each keeps it. -/
theorem not_selects_of_lowNibble {f : BitVec 4} {low : Addr12} {ns : List (BitVec 4)}
    (hrows : ∀ r ∈ exactRows, family r.pattern = f.toFin →
      r.mask.extractLsb' 0 4 = BitVec.allOnes 4 ∧ r.pattern.extractLsb' 0 4 ∉ ns)
    (hlow : lowNibble low ∈ ns) {r : OpcodeRow} (hr : r ∈ exactRows) : r.selects (packNnn f low) = false := by
  by_contra hsel
  have hsel := eq_true_of_ne_false hsel
  obtain ⟨hmask, hpattern⟩ := hrows r hr ((family_eq_of_selects hr hsel).trans (family_packNnn f low))
  have hnibble : lowNibble low = r.pattern.extractLsb' 0 4 :=
    (toFin_inj (fieldN_packNnn f low)).symm.trans (extract_eq_of_selects hsel hmask)
  exact hpattern (hnibble ▸ hlow)

/-- Families E and F: the rows of the family differ in the low byte, and each keeps it. -/
theorem not_selects_of_lowByte {f : BitVec 4} {low : Addr12} {kks : List Byte}
    (hrows : ∀ r ∈ exactRows, family r.pattern = f.toFin →
      r.mask.extractLsb' 0 8 = BitVec.allOnes 8 ∧ fieldKk r.pattern ∈ kks)
    (hlow : lowByte low ∉ kks) {r : OpcodeRow} (hr : r ∈ exactRows) : r.selects (packNnn f low) = false := by
  by_contra hsel
  have hsel := eq_true_of_ne_false hsel
  obtain ⟨hmask, hpattern⟩ := hrows r hr ((family_eq_of_selects hr hsel).trans (family_packNnn f low))
  have hbyte : lowByte low = fieldKk r.pattern :=
    (fieldKk_packNnn f low).symm.trans (extract_eq_of_selects hsel hmask)
  exact hlow (hbyte ▸ hpattern)

/-- The nibbles that leave a word of family 5 or 9 to its fallback row. -/
def nonzeroNibbles : List (BitVec 4) := [1, 2, 3, 4, 5, 6, 7, 8, 9, 10, 11, 12, 13, 14, 15]

theorem mem_nonzeroNibbles {n : BitVec 4} (h : (n != 0) = true) : n ∈ nonzeroNibbles := by
  revert n
  decide

theorem not_selects_of_isFallback {i : Instr} (h : i.isFallback = true) (hwf : i.wellFormed = true) {r : OpcodeRow}
    (hr : r ∈ exactRows) : r.selects (encode i) = false := by
  cases i
  case sys => exact not_selects_sys hwf hr
  case nop5 => exact not_selects_of_lowNibble (f := 0x5) (by decide) (mem_nonzeroNibbles hwf) hr
  case nop8 => exact not_selects_of_lowNibble (f := 0x8) (by decide) (List.contains_iff_mem.1 hwf) hr
  case nop9 => exact not_selects_of_lowNibble (f := 0x9) (by decide) (mem_nonzeroNibbles hwf) hr
  case nopE low =>
    have hlow : lowByte low ∉ listedE := by simpa [Instr.wellFormed] using hwf
    exact not_selects_of_lowByte (f := 0xE) (by decide) hlow hr
  case nopF low =>
    have hlow : lowByte low ∉ listedF := by simpa [Instr.wellFormed] using hwf
    exact not_selects_of_lowByte (f := 0xF) (by decide) hlow hr
  all_goals cases h

/-! ## The map -/

/-- No two rows select one word: where both masks keep a bit, the patterns of different rows differ somewhere. -/
theorem eq_of_selects {r q : OpcodeRow} (hr : r ∈ exactRows) (hq : q ∈ exactRows) {w : Word}
    (hrw : r.selects w = true) (hqw : q.selects w = true) : r = q := by
  have hdisjoint : ∀ r ∈ exactRows, ∀ q ∈ exactRows, r.pattern &&& q.mask = q.pattern &&& r.mask → r = q := by decide
  have hrw : w &&& r.mask = r.pattern := beq_iff_eq.1 hrw
  have hqw : w &&& q.mask = q.pattern := beq_iff_eq.1 hqw
  exact hdisjoint r hr q hq (by rw [← hrw, ← hqw, BitVec.and_assoc, BitVec.and_assoc, BitVec.and_comm r.mask])

theorem eq_of_mnemonic_eq {r q : OpcodeRow} (hr : r ∈ exactRows) (hq : q ∈ exactRows)
    (h : r.mnemonic = q.mnemonic) : r = q := by
  have hnames : ∀ r ∈ exactRows, ∀ q ∈ exactRows, r.mnemonic = q.mnemonic → r = q := by decide
  exact hnames r hr q hq h

theorem mnemonic_ne_of_isFallback {i : Instr} (h : i.isFallback = true) {r : OpcodeRow} (hr : r ∈ exactRows) :
    i.mnemonic ≠ r.mnemonic := by
  have hnames : ∀ r ∈ exactRows, "SYS_nnn" ≠ r.mnemonic ∧ "NOP" ≠ r.mnemonic := by decide
  cases i
  case sys => exact (hnames r hr).1
  case nop5 | nop8 | nop9 | nopE | nopF => exact (hnames r hr).2
  all_goals cases h

theorem exec_of_isFallback {i : Instr} (h : i.isFallback = true) (s : Machine.State) : Machine.exec i s = .next s := by
  cases i
  case sys | nop5 | nop8 | nop9 | nopE | nopF => rfl
  all_goals cases h

/-- Settles O5, by the instruction of the word: a fallback has neither a row that selects it nor the mnemonic of one; any
other has one row that selects it, which is the row of its mnemonic. -/
theorem decoderFollowsTheOpcodeMap : Obligations.DecoderFollowsTheOpcodeMap := by
  intro w r hr
  obtain ⟨hwf, hword⟩ := isReadingOf_decodeWord w
  rcases hfallback : (decodeWord w).isFallback with _ | _
  · obtain ⟨q, hq, hname, hsel⟩ := hasRow_of_not_isFallback hfallback
    rw [hword] at hsel
    refine ⟨fun hrw => ?_, fun hrname => ?_⟩
    · rw [eq_of_selects hr hq hrw hsel, hname]
    · rwa [eq_of_mnemonic_eq hr hq (hrname.symm.trans hname.symm)]
  · have hnone := not_selects_of_isFallback hfallback hwf hr
    rw [hword] at hnone
    simp [hnone, mnemonic_ne_of_isFallback hfallback hr]

/-- Settles O6, by the instruction of the word in the same way. -/
theorem everyWordMatchesOneRowOrIsANoOp : Obligations.EveryWordMatchesOneRowOrIsANoOp := by
  intro w
  obtain ⟨hwf, hword⟩ := isReadingOf_decodeWord w
  rcases hfallback : (decodeWord w).isFallback with _ | _
  · obtain ⟨r, hr, -, hsel⟩ := hasRow_of_not_isFallback hfallback
    rw [hword] at hsel
    exact .inl ⟨r, hr, hsel, fun q hq hqw => eq_of_selects hq hr hqw hsel⟩
  · refine .inr ⟨fun r hr => ?_, exec_of_isFallback hfallback⟩
    rw [← hword]
    exact not_selects_of_isFallback hfallback hwf hr

/-- Settles O2: the seven words are closed, and the decoder computes. -/
theorem writtenOutWordsDecode : Obligations.WrittenOutWordsDecode := by
  unfold Obligations.WrittenOutWordsDecode
  decide

/-- Settles O39: the six instructions are the fallback rows. -/
theorem fallbackRowsChangeNothing : Obligations.FallbackRowsChangeNothing := by
  intro low s i hi
  apply exec_of_isFallback
  simp only [List.mem_cons, List.not_mem_nil, or_false] at hi
  rcases hi with rfl | rfl | rfl | rfl | rfl | rfl <;> rfl

end Sys2Proof
end

section
/-! PROOFS. What executing an instruction can do, said once (R102): in every state it performs one update of those listed
as `Update`, which one depends only on the elements that `SameReads` names, and `Update.Allowed` says which instructions
may perform it and with which operands. The statements about every instruction follow by cases on the update. -/

namespace Sys2Proof.Claims

open Sys2Proof Sys2Proof.Machine

/-! ## The call and the return by the number of occupied slots (R132, R134) -/

variable {s : State}

theorem exec_ret_of_pos {j : Fin 16} (h : s.sp.val = j.val + 1) :
    exec .ret s = .next { s with sp := j.castSucc, pc := s.stack[j] } := by
  have hj : s.sp.val - 1 = j.val := by omega
  have hpop : s.pop = some (s.stack[j], { s with sp := j.castSucc }) := by
    rw [State.pop_of_pos s (by omega)]
    simp only [hj]
    rfl
  simp only [exec, execRet, hpop]
  rfl

theorem exec_ret_of_empty (h : s.sp.val = 0) : exec .ret s = .next (s.instrFault .stackUnderflow .ret) := by
  simp only [exec, execRet, State.pop_empty s (Fin.ext h)]

theorem exec_call_of_lt (nnn : Addr12) {j : Fin 16} (h : s.sp.val = j.val) : exec (.call nnn) s =
    .next { s with stack := s.stack.set j s.pc, sp := j.succ, pc := addrOperand nnn } := by
  have hpush : s.push s.pc = some { s with stack := s.stack.set j s.pc, sp := j.succ } := by
    rw [State.push_of_lt s s.pc (by omega)]
    simp only [h]
    rfl
  simp only [exec, execCall, hpush]
  rfl

theorem exec_call_of_full (nnn : Addr12) (h : s.sp.val = 16) :
    exec (.call nnn) s = .next (s.instrFault (.stackOverflow s.pc) (.call nnn)) := by
  simp only [exec, execCall, State.push_full s s.pc (Fin.ext h)]

end Sys2Proof.Claims

namespace Sys2Proof.Machine

open Sys2Proof Sys2Proof.Claims

/-- What an instruction does to the state, with the values it writes. -/
inductive Update where
  /-- No element changes. -/
  | keep
  /-- V[x] takes a value. -/
  | reg (x : Reg) (b : Byte)
  /-- V[x] takes a result, then VF a flag (R160). -/
  | flagged (x : Reg) (b : Byte) (c : Bool)
  /-- V[x] takes a value and a draw is counted (R173). -/
  | random (x : Reg) (b : Byte)
  /-- V[0], V[1], ... take bytes (R205). -/
  | load (bs : List Byte)
  /-- I takes a value. -/
  | index (w : Word)
  /-- PC takes a value. -/
  | jump (w : Word)
  /-- The free slot `j` takes the pushed address, and PC the target (R134). -/
  | call (j : Fin 16) (pushed target : Word)
  /-- The top slot `j` is freed, and PC takes what it held (R132). -/
  | ret (j : Fin 16) (target : Word)
  /-- Memory takes stores in bounds. -/
  | store (m : Memory)
  /-- DT takes a value. -/
  | delay (b : Byte)
  /-- ST takes a value. -/
  | sound (b : Byte)
  /-- The framebuffer takes a picture, and DIRTY is set (R34). -/
  | display (g : Framebuffer)
  /-- The same, and VF takes the collision (R236). -/
  | sprite (g : Framebuffer) (c : Bool)
  /-- RUNSTATE waits for a key (R263). -/
  | halt (x : Reg)
  /-- A fault before any write (R309). -/
  | fault (k : FaultKind)
  /-- A fault after bytes of memory were forgotten (D3). -/
  | storeFault (m : Memory) (k : FaultKind)
  /-- A fault after registers were forgotten (D3). -/
  | loadFault (bs : List Byte) (k : FaultKind)

/-- The state after an update by the instruction `i`, whose word a fault records. -/
def Update.apply (i : Instr) (s : State) : Update → State
  | .keep => s
  | .reg x b => s.setReg x b
  | .flagged x b c => s.setRegFlag x b c
  | .random x b => (s.setReg x b).nextDraw
  | .load bs => s.loadRegs bs
  | .index w => s.setI w
  | .jump w => s.setPc w
  | .call j pushed target => { s with stack := s.stack.set j pushed, sp := j.succ, pc := target }
  | .ret j target => { s with sp := j.castSucc, pc := target }
  | .store m => s.setMem m
  | .delay b => s.setDt b
  | .sound b => s.setSt b
  | .display g => s.setFb g
  | .sprite g c => (s.setFb g).setReg vf (flagByte c)
  | .halt x => s.setRunState (.halted x)
  | .fault k => s.instrFault k i
  | .storeFault m k => ((s.setMem m).nextDraw).instrFault k i
  | .loadFault bs k => ((s.loadRegs bs).nextDraw).instrFault k i

/-- The updates that `i` may perform in `s`: who writes which element, and how far PC, the stack and memory may go. -/
def Update.Allowed (i : Instr) (s : State) : Update → Prop
  | .keep | .delay _ | .sound _ | .fault _ => True
  | .reg x _ | .random x _ => x = vf → hasDestinationVf i = true
  | .flagged _ _ _ => definesFlag i = true
  | .load bs | .loadFault bs _ => bs.length ≤ 15 ∨ hasDestinationVf i = true
  | .index _ => writesI i = true
  | .jump w => writesPc i = true ∧ (w.toNat ≤ 0x10FE ∨ w = s.pc ∨ w = s.pc + 2)
  | .call j pushed target =>
    writesPc i = true ∧ writesStack i = true ∧ s.sp.val = j.val ∧ pushed = s.pc ∧ target.toNat ≤ 0xFFF
  | .ret j target => writesPc i = true ∧ writesStack i = true ∧ s.sp.val = j.val + 1 ∧ target = s.stack[j]
  | .store m | .storeFault m _ => writesMem i = true ∧ (s.mem.wf → m.wf)
  | .display _ => writesDisplay i = true
  | .sprite _ _ => writesDisplay i = true ∧ definesFlag i = true
  | .halt x => i = .ldVxK x

/-- Two states that agree in all that an instruction can read: DIRTY, SOUND_ACTIVE, ST, RUNSTATE, the position in the
batch, IPT and the stack slots at SP and above may differ. -/
structure SameReads (s t : State) : Prop where
  v : t.v = s.v
  i : t.i = s.i
  pc : t.pc = s.pc
  sp : t.sp = s.sp
  slots : ∀ j : Fin 16, j.val < s.sp.val → t.stack[j] = s.stack[j]
  mem : t.mem = s.mem
  dt : t.dt = s.dt
  fb : t.fb = s.fb
  key : t.key = s.key
  draws : t.draws = s.draws

theorem SameReads.refl (s : State) : SameReads s s := ⟨rfl, rfl, rfl, rfl, fun _ _ => rfl, rfl, rfl, rfl, rfl, rfl⟩

/-- Where the reads agree with those of `s`, the state function does what one update allowed in `s` does. -/
def Performs (i : Instr) (s : State) (f : State → State) : Prop :=
  ∃ u : Update, u.Allowed i s ∧ ∀ t, SameReads s t → f t = u.apply i t

variable {s t : State}

theorem SameReads.reg (h : SameReads s t) (x : Reg) : t.reg x = s.reg x := by rw [State.reg, h.v, State.reg]

theorem SameReads.keyDown (h : SameReads s t) (k : Reg) : t.keyDown k = s.keyDown k := by
  rw [State.keyDown, h.key, State.keyDown]

theorem SameReads.effAddr (h : SameReads s t) (j : Nat) : t.effAddr j = s.effAddr j := by
  rw [State.effAddr, h.i, State.effAddr]

/-! ## The shared operations -/

theorem performs_setReg {i : Instr} (x : Reg) {b : State → Byte} (hi : x = vf → hasDestinationVf i = true)
    (hb : ∀ t, SameReads s t → b t = b s) : Performs i s fun t => t.setReg x (b t) :=
  ⟨.reg x (b s), hi, fun t h => congrArg _ (hb t h)⟩

theorem performs_setRegFlag {i : Instr} (x : Reg) {b : State → Byte} {c : State → Bool} (hi : definesFlag i = true)
    (hb : ∀ t, SameReads s t → b t = b s) (hc : ∀ t, SameReads s t → c t = c s) :
    Performs i s fun t => t.setRegFlag x (b t) (c t) :=
  ⟨.flagged x (b s) (c s), hi, fun t h => congrArg₂ _ (hb t h) (hc t h)⟩

/-- A random byte, whose draw is counted (R173). -/
theorem performs_setReg_nextDraw {i : Instr} (x : Reg) {b : State → Byte} (hi : x = vf → hasDestinationVf i = true)
    (hb : ∀ t, SameReads s t → b t = b s) : Performs i s fun t => (t.setReg x (b t)).nextDraw :=
  ⟨.random x (b s), hi, fun t h => congrArg (fun c => (t.setReg x c).nextDraw) (hb t h)⟩

theorem performs_setDt {i : Instr} {b : State → Byte} (hb : ∀ t, SameReads s t → b t = b s) :
    Performs i s fun t => t.setDt (b t) :=
  ⟨.delay (b s), trivial, fun t h => congrArg _ (hb t h)⟩

theorem performs_setSt {i : Instr} {b : State → Byte} (hb : ∀ t, SameReads s t → b t = b s) :
    Performs i s fun t => t.setSt (b t) :=
  ⟨.sound (b s), trivial, fun t h => congrArg _ (hb t h)⟩

/-- A drawing and its collision flag (R236). -/
theorem performs_sprite {i : Instr} {d : State → Drawing} (hdisplay : writesDisplay i = true)
    (hflag : definesFlag i = true) (hd : ∀ t, SameReads s t → d t = d s) :
    Performs i s fun t => (t.setFb (d t).1).setReg vf (flagByte (d t).2) :=
  ⟨.sprite (d s).1 (d s).2, ⟨hdisplay, hflag⟩, fun t h =>
    congrArg (fun e : Drawing => (t.setFb e.1).setReg vf (flagByte e.2)) (hd t h)⟩

theorem performs_setI {i : Instr} {w : State → Word} (hi : writesI i = true)
    (hw : ∀ t, SameReads s t → w t = w s) : Performs i s fun t => t.setI (w t) :=
  ⟨.index (w s), hi, fun t h => congrArg _ (hw t h)⟩

theorem performs_setPc {i : Instr} {w : State → Word} (hi : writesPc i = true) (hle : (w s).toNat ≤ 0x10FE)
    (hw : ∀ t, SameReads s t → w t = w s) : Performs i s fun t => t.setPc (w t) :=
  ⟨.jump (w s), ⟨hi, .inl hle⟩, fun t h => congrArg _ (hw t h)⟩

theorem performs_skipIf {i : Instr} {c : State → Bool} (hi : writesPc i = true)
    (hc : ∀ t, SameReads s t → c t = c s) : Performs i s fun t => t.skipIf (c t) := by
  refine ⟨.jump (if c s then s.pc + 2 else s.pc), ⟨hi, .inr ?_⟩, fun t h => ?_⟩
  · cases c s
    · exact .inl rfl
    · exact .inr rfl
  · show t.skipIf (c t) = t.setPc _
    rw [State.skipIf_eq, hc t h, h.pc]

theorem performs_withKey {i : Instr} (x : Reg) {k : Reg → State → State}
    (hk : ∀ j, Performs i s (k j)) : Performs i s fun t => t.withKey i (t.reg x) (k · t) := by
  rcases Nat.lt_or_ge 15 (s.reg x).toNat with hlt | hge
  · refine ⟨.fault (.keyIndexOutOfRange (s.reg x)), trivial, fun t h => ?_⟩
    show t.withKey i (t.reg x) _ = t.instrFault _ i
    rw [h.reg, State.withKey_fault t i _ hlt]
  · obtain ⟨u, hu, hperforms⟩ := hk ⟨(s.reg x).toNat, by omega⟩
    refine ⟨u, hu, fun t h => ?_⟩
    show t.withKey i (t.reg x) _ = u.apply i t
    rw [h.reg, State.withKey_ok t i _ (by omega), hperforms t h]

theorem performs_withBytes {i : Instr} (n : Nat) {k : List Byte → State → State}
    (hk : ∀ bs, Performs i s (k bs)) : Performs i s fun t => t.withBytes i n (k · t) := by
  rcases hread : s.mem.readRange (s.effAddr 0) n with bad | bs
  · refine ⟨.fault (.readOutOfBounds bad), trivial, fun t h => ?_⟩
    simp only [State.withBytes, h.mem, h.effAddr, hread]
    rfl
  · obtain ⟨u, hu, hperforms⟩ := hk bs
    refine ⟨u, hu, fun t h => ?_⟩
    simp only [State.withBytes, h.mem, h.effAddr, hread]
    exact hperforms t h

/-- Forgetting the bytes from an address to the end of memory keeps the canonical form. -/
theorem Memory.wf_forget_to_end {m : Memory} (h : m.wf) (d a : Nat) : (m.forget d a (max a 4096 - a)).wf := by
  rcases Nat.lt_or_ge 4096 a with hlt | hle
  · rw [Nat.max_eq_left hlt.le, Nat.sub_self]
    exact h
  · exact Memory.wf_forget h (by omega)

/-- A store changes memory below 4096, in bounds or not. -/
theorem performs_storeBytes {i : Instr} {bs : State → List Byte} (hi : writesMem i = true) (hpos : 0 < (bs s).length)
    (hbs : ∀ t, SameReads s t → bs t = bs s) : Performs i s fun t => t.storeBytes i (bs t) := by
  rcases Nat.lt_or_ge 4096 (s.effAddr 0 + (bs s).length) with hlt | hle
  · refine ⟨.storeFault (s.mem.forget s.draws (s.effAddr 0) (max (s.effAddr 0) 4096 - s.effAddr 0))
      (.writeOutOfBounds (max (s.effAddr 0) 4096)), ⟨hi, fun hwf => Memory.wf_forget_to_end hwf _ _⟩, fun t h => ?_⟩
    show t.storeBytes i (bs t) = ((t.setMem _).nextDraw).instrFault _ i
    rw [hbs t h, State.storeBytes_fault t i hpos (by rwa [h.effAddr]), h.mem, h.draws, h.effAddr]
  · refine ⟨.store (s.mem.writeAll (s.effAddr 0) (bs s)), ⟨hi, fun hwf => Memory.wf_writeAll hwf hle⟩, fun t h => ?_⟩
    show t.storeBytes i (bs t) = t.setMem _
    rw [hbs t h, State.storeBytes_ok t i (by rwa [h.effAddr]), h.mem, h.effAddr]

theorem performs_loadBytes {i : Instr} {x : Reg} (hi : x = vf → hasDestinationVf i = true) :
    Performs i s fun t => t.loadBytes i (rangeLength x) := by
  have hpos : 0 < rangeLength x := Nat.succ_pos x.val
  have hlength : rangeLength x ≤ 15 ∨ hasDestinationVf i = true := by
    by_cases hx : x = vf
    · exact .inr (hi hx)
    · have hval : x.val ≠ 15 := fun h => hx (Fin.ext h)
      exact .inl (by unfold rangeLength; omega)
  rcases Nat.lt_or_ge 4096 (s.effAddr 0 + rangeLength x) with hlt | hle
  · refine ⟨.loadFault ((List.range (max (s.effAddr 0) 4096 - s.effAddr 0)).map fun j =>
      Config.unspecifiedByte s.draws (s.effAddr j)) (.readOutOfBounds (max (s.effAddr 0) 4096)),
      hlength.imp_left fun h => ?_, fun t h => ?_⟩
    · rw [List.length_map, List.length_range]
      omega
    · show t.loadBytes i _ = ((t.loadRegs _).nextDraw).instrFault _ i
      rw [State.loadBytes_fault t i hpos (by rwa [h.effAddr])]
      simp only [State.forgetRegs, h.effAddr, h.draws]
  · refine ⟨.load ((List.range (rangeLength x)).map fun j => s.mem.read (s.effAddr 0 + j)),
      hlength.imp_left fun h => by rwa [List.length_map, List.length_range], fun t h => ?_⟩
    show t.loadBytes i _ = t.loadRegs _
    rw [State.loadBytes_ok t i (by rwa [h.effAddr]), h.mem, h.effAddr]

/-! ## The instructions -/

/-- In every state that agrees with `s` in what is read, the instruction performs one update allowed in `s`. -/
def ExecPerforms (i : Instr) (s : State) : Prop :=
  ∃ u : Update, u.Allowed i s ∧ ∀ t, SameReads s t → exec i t = .next (u.apply i t)

theorem Performs.exec {i : Instr} {f : State → State} (hf : Performs i s f)
    (hexec : ∀ t, Machine.exec i t = .next (f t)) : ExecPerforms i s := by
  obtain ⟨u, hu, hperforms⟩ := hf
  exact ⟨u, hu, fun t h => (hexec t).trans (congrArg _ (hperforms t h))⟩

theorem execPerforms_ret (s : State) : ExecPerforms .ret s := by
  rcases Nat.eq_zero_or_pos s.sp.val with hempty | hpos
  · refine ⟨.fault .stackUnderflow, trivial, fun t h => exec_ret_of_empty ?_⟩
    rw [h.sp, hempty]
  · have hsp : s.sp.val = (⟨s.sp.val - 1, by omega⟩ : Fin 16).val + 1 := by simp only; omega
    generalize (⟨s.sp.val - 1, by omega⟩ : Fin 16) = j at hsp
    refine ⟨.ret j s.stack[j], ⟨rfl, rfl, hsp, rfl⟩, fun t h => ?_⟩
    rw [exec_ret_of_pos ((congrArg Fin.val h.sp).trans hsp), h.slots j (by omega)]
    rfl

theorem execPerforms_call (nnn : Addr12) (s : State) : ExecPerforms (.call nnn) s := by
  rcases Nat.lt_or_ge s.sp.val 16 with hlt | hfull
  · have hsp : s.sp.val = (⟨s.sp.val, hlt⟩ : Fin 16).val := rfl
    refine ⟨.call ⟨s.sp.val, hlt⟩ s.pc (addrOperand nnn), ⟨rfl, rfl, hsp, rfl, ?_⟩, fun t h => ?_⟩
    · rw [addrOperand_toNat]
      omega
    · rw [exec_call_of_lt nnn ((congrArg Fin.val h.sp).trans hsp), h.pc]
      rfl
  · refine ⟨.fault (.stackOverflow s.pc), trivial, fun t h => ?_⟩
    rw [exec_call_of_full nnn (by rw [h.sp]; omega), h.pc]
    rfl

theorem execPerforms_of_isFallback {i : Instr} (h : i.isFallback = true) (s : State) : ExecPerforms i s :=
  ⟨.keep, trivial, fun t _ => exec_of_isFallback h t⟩

theorem jumpV0Target_toNat (s : State) (nnn : Addr12) : (jumpV0Target s nnn).toNat = nnn.toNat + (s.reg 0).toNat := by
  rw [jumpV0Target, BitVec.toNat_ofNat]
  omega

/-- An instruction whose destination field is x has VF as destination where x = 0xF. -/
theorem beq_vf_of_eq {x : Reg} (h : x = vf) : (x == vf) = true := beq_iff_eq.2 h

theorem execPerforms (i : Instr) (s : State) : ExecPerforms i s := by
  cases i
  case cls => exact ⟨.display Framebuffer.clear, rfl, fun _ _ => rfl⟩
  case ret => exact execPerforms_ret s
  case jp nnn => exact (performs_setPc rfl (by rw [addrOperand_toNat]; omega) fun _ _ => rfl).exec fun _ => rfl
  case call nnn => exact execPerforms_call nnn s
  case seImm x kk => exact (performs_skipIf rfl fun t h => by rw [h.reg]).exec (exec_seImm x kk)
  case sneImm x kk => exact (performs_skipIf rfl fun t h => by rw [h.reg]).exec (exec_sneImm x kk)
  case seReg x y => exact (performs_skipIf rfl fun t h => by rw [h.reg, h.reg]).exec fun _ => rfl
  case ldImm x kk => exact (performs_setReg x beq_vf_of_eq fun _ _ => rfl).exec (exec_ldImm x kk)
  case addImm x kk => exact (performs_setReg x beq_vf_of_eq fun t h => by rw [h.reg]).exec (exec_addImm x kk)
  case ldReg x y => exact (performs_setReg x beq_vf_of_eq fun t h => h.reg y).exec (exec_ldReg x y)
  case orReg x y => exact (performs_setReg x beq_vf_of_eq fun t h => by rw [h.reg, h.reg]).exec fun _ => rfl
  case andReg x y => exact (performs_setReg x beq_vf_of_eq fun t h => by rw [h.reg, h.reg]).exec fun _ => rfl
  case xorReg x y => exact (performs_setReg x beq_vf_of_eq fun t h => by rw [h.reg, h.reg]).exec fun _ => rfl
  case addReg x y =>
    exact (performs_setRegFlag x rfl (fun t h => by rw [h.reg, h.reg]) fun t h => by rw [h.reg, h.reg]).exec
      (exec_addReg x y)
  case subReg x y =>
    exact (performs_setRegFlag x rfl (fun t h => by rw [h.reg, h.reg]) fun t h => by rw [h.reg, h.reg]).exec
      (exec_subReg x y)
  case shr x y =>
    exact (performs_setRegFlag x rfl (fun t h => by rw [h.reg]) fun t h => by rw [h.reg]).exec (exec_shr x y)
  case subnReg x y =>
    exact (performs_setRegFlag x rfl (fun t h => by rw [h.reg, h.reg]) fun t h => by rw [h.reg, h.reg]).exec
      (exec_subnReg x y)
  case shl x y =>
    exact (performs_setRegFlag x rfl (fun t h => by rw [h.reg]) fun t h => by rw [h.reg]).exec (exec_shl x y)
  case sneReg x y => exact (performs_skipIf rfl fun t h => by rw [h.reg, h.reg]).exec fun _ => rfl
  case ldI nnn => exact (performs_setI rfl fun _ _ => rfl).exec (exec_ldI nnn)
  case jpV0 nnn =>
    refine (performs_setPc (w := (jumpV0Target · nnn)) rfl ?_ fun t h => ?_).exec fun _ => rfl
    · rw [jumpV0Target_toNat]
      omega
    · rw [jumpV0Target, h.reg, jumpV0Target]
  case rnd x kk =>
    exact (performs_setReg_nextDraw x beq_vf_of_eq fun t h => by rw [h.draws]).exec fun _ => rfl
  case drw x y n =>
    refine (performs_withBytes n.val fun rows => ?_).exec fun _ => rfl
    exact performs_sprite rfl rfl fun t h => by rw [h.reg, h.reg, h.fb]
  case skp x =>
    exact (performs_withKey x fun j => performs_skipIf rfl fun t h => h.keyDown j).exec fun _ => rfl
  case sknp x =>
    exact (performs_withKey x fun j => performs_skipIf rfl fun t h => by rw [h.keyDown]).exec fun _ => rfl
  case ldVxDt x => exact (performs_setReg x beq_vf_of_eq fun t h => h.dt).exec fun _ => rfl
  case ldVxK x => exact ⟨.halt x, rfl, fun _ _ => rfl⟩
  case ldDtVx x => exact (performs_setDt fun t h => h.reg x).exec fun _ => rfl
  case ldStVx x => exact (performs_setSt fun t h => h.reg x).exec fun _ => rfl
  case addI x => exact (performs_setI rfl fun t h => by rw [h.i, h.reg]).exec fun _ => rfl
  case ldF x => exact (performs_setI rfl fun t h => by rw [h.reg]).exec fun _ => rfl
  case ldB x =>
    exact (performs_storeBytes rfl (by simp) fun t h => by rw [h.reg]).exec fun _ => rfl
  case storeRegs x =>
    refine (performs_storeBytes (bs := (·.regRange x)) rfl (by simp) fun t h => ?_).exec fun _ => rfl
    rw [State.regRange, h.v, State.regRange]
  case loadRegs x => exact (performs_loadBytes beq_vf_of_eq).exec fun _ => rfl
  case sys | nop5 | nop8 | nop9 | nopE | nopF => exact execPerforms_of_isFallback rfl s

/-! ## The forms in which later proofs use it -/

theorem exec_completes (i : Instr) (s : State) : ∃ t, exec i s = .next t := by
  obtain ⟨u, -, hexec⟩ := execPerforms i s
  exact ⟨_, hexec s (SameReads.refl s)⟩

theorem exists_update_of_exec {i : Instr} (h : exec i s = .next t) : ∃ u : Update, u.Allowed i s ∧ t = u.apply i s := by
  obtain ⟨u, hu, hexec⟩ := execPerforms i s
  rw [hexec s (SameReads.refl s)] at h
  exact ⟨u, hu, (Host.Outcome.next.inj h).symm⟩

end Sys2Proof.Machine
end

section
/-! PROOFS. Who writes what, and what is not read (R22 to R37): each fact by cases on the update that an instruction
performs. -/

namespace Sys2Proof.Machine

open Sys2Proof Sys2Proof.Claims

variable {i : Instr} {s : State} {u : Update}

/-! ## What every update keeps -/

@[simp] theorem Update.apply_key (i : Instr) (s : State) (u : Update) : (u.apply i s).key = s.key := by cases u <;> rfl

@[simp] theorem Update.apply_soundActive (i : Instr) (s : State) (u : Update) :
    (u.apply i s).soundActive = s.soundActive := by cases u <;> rfl

@[simp] theorem Update.apply_ipt (i : Instr) (s : State) (u : Update) : (u.apply i s).ipt = s.ipt := by cases u <;> rfl

@[simp] theorem Update.apply_batchDone (i : Instr) (s : State) (u : Update) :
    (u.apply i s).batchDone = s.batchDone := by cases u <;> rfl

/-! ## What an update keeps by an instruction that does not write it -/

theorem Update.apply_i (h : u.Allowed i s) (hi : writesI i ≠ true) : (u.apply i s).i = s.i := by
  cases u
  case index => exact absurd h hi
  all_goals rfl

theorem Update.apply_pc (h : u.Allowed i s) (hi : writesPc i ≠ true) : (u.apply i s).pc = s.pc := by
  cases u
  case jump | call | ret => exact absurd h.1 hi
  all_goals rfl

theorem Update.apply_sp (h : u.Allowed i s) (hi : writesStack i ≠ true) : (u.apply i s).sp = s.sp := by
  cases u
  case call | ret => exact absurd h.2.1 hi
  all_goals rfl

theorem Update.apply_stack (h : u.Allowed i s) (hi : writesStack i ≠ true) : (u.apply i s).stack = s.stack := by
  cases u
  case call => exact absurd h.2.1 hi
  all_goals rfl

theorem Update.apply_mem (h : u.Allowed i s) (hi : writesMem i ≠ true) : (u.apply i s).mem = s.mem := by
  cases u
  case store | storeFault => exact absurd h.1 hi
  all_goals rfl

theorem Update.apply_fb (h : u.Allowed i s) (hi : writesDisplay i ≠ true) : (u.apply i s).fb = s.fb := by
  cases u
  case display => exact absurd h hi
  case sprite => exact absurd h.1 hi
  all_goals rfl

theorem Update.apply_dirty (h : u.Allowed i s) (hi : writesDisplay i ≠ true) : (u.apply i s).dirty = s.dirty := by
  cases u
  case display => exact absurd h hi
  case sprite => exact absurd h.1 hi
  all_goals rfl

/-- A load of at most 15 registers does not reach VF. -/
theorem State.loadRegs_reg_vf (s : State) {bs : List Byte} (h : bs.length ≤ 15) : (s.loadRegs bs).reg vf = s.reg vf := by
  rw [State.loadRegs_reg, List.getElem?_eq_none (show bs.length ≤ vf.val from h), Option.getD_none]

theorem Update.apply_reg_vf (h : u.Allowed i s) (hflag : definesFlag i ≠ true) (hdest : hasDestinationVf i ≠ true) :
    (u.apply i s).reg vf = s.reg vf := by
  cases u
  case flagged => exact absurd h hflag
  case sprite => exact absurd h.2 hflag
  case reg x b | random x b => exact State.setReg_reg_ne s (fun hx => hdest (h hx.symm)) b
  case load bs | loadFault bs k => exact State.loadRegs_reg_vf s (h.resolve_right hdest)
  all_goals rfl

/-! ## RUNSTATE -/

theorem Update.apply_runState (h : u.Allowed i s) : (u.apply i s).runState = s.runState ∨
    (∃ x, i = .ldVxK x ∧ (u.apply i s).runState = .halted x) ∨
    ∃ k, (u.apply i s).runState = .faulted ⟨k, s.pc - 2, some (encode i)⟩ := by
  cases u
  case halt x => exact .inr (.inl ⟨x, h, rfl⟩)
  case fault k | storeFault m k | loadFault bs k => exact .inr (.inr ⟨k, rfl⟩)
  all_goals exact .inl rfl

/-! ## The statements -/

/-- Settles O40, by the update performed. -/
theorem onlyFlagOpcodesWriteVf : Obligations.OnlyFlagOpcodesWriteVf := by
  intro i s t hexec hvf
  obtain ⟨u, hu, rfl⟩ := exists_update_of_exec hexec
  by_contra hnot
  rw [not_or] at hnot
  exact hvf (Update.apply_reg_vf hu hnot.1 hnot.2)

/-- Settles O41, by the update performed: one lemma for each element. -/
theorem eachElementHasItsWriters : Obligations.EachElementHasItsWriters := by
  intro i s t hexec
  obtain ⟨u, hu, rfl⟩ := exists_update_of_exec hexec
  refine ⟨?i, ?pc, ?stack, ?mem, ?display, u.apply_key i s, u.apply_soundActive i s, u.apply_ipt i s⟩
  case i => exact fun hne => by_contra fun hi => hne (Update.apply_i hu hi)
  case pc => exact fun hne => by_contra fun hi => hne (Update.apply_pc hu hi)
  case stack =>
    exact fun hne => by_contra fun hi => hne.elim (· (Update.apply_sp hu hi)) (· (Update.apply_stack hu hi))
  case mem =>
    rintro ⟨a, hne⟩
    exact by_contra fun hi => hne (by rw [Update.apply_mem hu hi])
  case display =>
    exact fun hne => by_contra fun hi => hne.elim (· (Update.apply_fb hu hi)) (· (Update.apply_dirty hu hi))

/-- Settles O42, by the update performed. -/
theorem runStateLeavesRunningOnlySo : Obligations.RunStateLeavesRunningOnlySo := by
  intro i s t hs hexec
  obtain ⟨u, hu, rfl⟩ := exists_update_of_exec hexec
  rw [← hs]
  exact Update.apply_runState hu

/-! ## Outputs -/

/-- The state with other values of the outputs and of ST. -/
def State.withOutputs (s : State) (d a : Bool) (b : Byte) : State := { s with dirty := d, soundActive := a, st := b }

theorem sameReads_withOutputs (s : State) (d a : Bool) (b : Byte) : SameReads s (s.withOutputs d a b) :=
  ⟨rfl, rfl, rfl, rfl, fun _ _ => rfl, rfl, rfl, rfl, rfl, rfl⟩

/-- Settles O60: the same update is performed, and it writes DIRTY or ST with a value of its own or leaves it alone. -/
theorem outputsAreNeverRead : Obligations.OutputsAreNeverRead := by
  intro i s d a b
  obtain ⟨u, -, hexec⟩ := execPerforms i s
  refine ⟨u.apply i s, hexec s (SameReads.refl s), u.apply i (s.withOutputs d a b),
    hexec _ (sameReads_withOutputs s d a b), ?_⟩
  cases u
  case display | sprite => exact ⟨rfl, .inl rfl, rfl, .inr ⟨rfl, rfl⟩⟩
  case sound => exact ⟨rfl, .inr ⟨rfl, rfl⟩, rfl, .inl rfl⟩
  all_goals exact ⟨rfl, .inr ⟨rfl, rfl⟩, rfl, .inr ⟨rfl, rfl⟩⟩

end Sys2Proof.Machine
end

section
/-! PROOFS. The fetch and the instruction step (spec/40_interpreter_cycle.md R101, spec/20_memory.md R55), and one slot of
a `Cycle` (log 1). -/

namespace Sys2Proof.Machine

open Sys2Proof Sys2Proof.Claims

variable {s t : State}

/-! ## The fetch -/

/-- The word at PC: the first byte is the high one (R55). -/
def State.wordAtPc (s : State) : Word := wordOfBytes (s.mem.read s.pc.toNat) (s.mem.read (s.pc.toNat + 1))

theorem wordOfBytes_toNat (hi lo : Byte) : (wordOfBytes hi lo).toNat = hi.toNat * 256 + lo.toNat := by
  rw [wordOfBytes, BitVec.toNat_append, ← Nat.shiftLeft_add_eq_or_of_lt lo.isLt, Nat.shiftLeft_eq]

theorem fetch_of_lt (h : s.pc.toNat + 1 < 4096) : fetch s = .ok s.wordAtPc := by
  have hread : s.mem.readRange s.pc.toNat 2 = .ok [s.mem.read s.pc.toNat, s.mem.read (s.pc.toNat + 1)] :=
    Memory.readRange_ok s.mem (by omega)
  simp only [fetch, hread]
  rfl

theorem fetch_of_ge (h : 4096 ≤ s.pc.toNat + 1) : fetch s = .error (max s.pc.toNat 4096) := by
  simp only [fetch, Memory.readRange_error s.mem (n := 2) (by omega) (show 4096 < s.pc.toNat + 2 by omega)]

theorem instrStep_of_lt (h : s.pc.toNat + 1 < 4096) :
    instrStep s = exec (decodeWord s.wordAtPc) (s.setPc (s.pc + 2)) := by
  simp only [instrStep, fetch_of_lt h]

theorem instrStep_of_ge (h : 4096 ≤ s.pc.toNat + 1) :
    instrStep s = .next (s.takeFault (.fetchOutOfBounds (max s.pc.toNat 4096)) s.pc none) := by
  simp only [instrStep, fetch_of_ge h]

theorem SameReads.setPc (h : SameReads s t) (w : Word) : SameReads (s.setPc w) (t.setPc w) :=
  ⟨h.v, h.i, rfl, h.sp, h.slots, h.mem, h.dt, h.fb, h.key, h.draws⟩

/-- What one instruction step does, in `s` and in every state that agrees with it in what is read: the fetch fault, or an
update by the instruction fetched. -/
theorem instrStep_performs (s : State) :
    (4096 ≤ s.pc.toNat + 1 ∧ ∀ t, SameReads s t →
      instrStep t = .next (t.takeFault (.fetchOutOfBounds (max s.pc.toNat 4096)) s.pc none)) ∨
    (s.pc.toNat + 1 < 4096 ∧ ∃ (i : Instr) (u : Update), u.Allowed i (s.setPc (s.pc + 2)) ∧ ∀ t, SameReads s t →
      instrStep t = .next (u.apply i (t.setPc (s.pc + 2)))) := by
  rcases Nat.lt_or_ge (s.pc.toNat + 1) 4096 with hlt | hge
  · obtain ⟨u, hu, hexec⟩ := execPerforms (decodeWord s.wordAtPc) (s.setPc (s.pc + 2))
    refine .inr ⟨hlt, _, u, hu, fun t h => ?_⟩
    have hword : t.wordAtPc = s.wordAtPc := by rw [State.wordAtPc, h.mem, h.pc, State.wordAtPc]
    rw [instrStep_of_lt (by rwa [h.pc]), hword, h.pc, hexec _ (h.setPc _)]
  · refine .inl ⟨hge, fun t h => ?_⟩
    rw [instrStep_of_ge (by rwa [h.pc]), h.pc]

theorem instrStep_completes (s : State) : ∃ t, instrStep s = .next t := by
  rcases instrStep_performs s with ⟨-, hstep⟩ | ⟨-, i, u, -, hstep⟩
  · exact ⟨_, hstep s (SameReads.refl s)⟩
  · exact ⟨_, hstep s (SameReads.refl s)⟩

/-- No instruction step touches SOUND_ACTIVE, IPT or the position in the batch. -/
theorem instrStep_keeps (h : instrStep s = .next t) :
    t.soundActive = s.soundActive ∧ t.ipt = s.ipt ∧ t.batchDone = s.batchDone := by
  rcases instrStep_performs s with ⟨-, hstep⟩ | ⟨-, i, u, -, hstep⟩
  all_goals
    rw [hstep s (SameReads.refl s)] at h
    cases h
  · exact ⟨rfl, rfl, rfl⟩
  · simp

/-! ## One slot -/

@[simp] theorem beginSlot_ipt (s : State) : (beginSlot s).ipt = s.ipt := by unfold beginSlot; split <;> rfl
@[simp] theorem beginSlot_pc (s : State) : (beginSlot s).pc = s.pc := by unfold beginSlot; split <;> rfl
@[simp] theorem beginSlot_mem (s : State) : (beginSlot s).mem = s.mem := by unfold beginSlot; split <;> rfl
@[simp] theorem beginSlot_sp (s : State) : (beginSlot s).sp = s.sp := by unfold beginSlot; split <;> rfl
@[simp] theorem beginSlot_stack (s : State) : (beginSlot s).stack = s.stack := by unfold beginSlot; split <;> rfl
@[simp] theorem beginSlot_batchDone (s : State) : (beginSlot s).batchDone = s.batchDone := by
  unfold beginSlot; split <;> rfl

theorem beginSlot_of_first (h : s.batchDone = 0) : beginSlot s = s.clearOutputFlags := if_pos h

theorem beginSlot_of_later (h : s.batchDone ≠ 0) : beginSlot s = s := if_neg h

theorem step_of_running (h : s.runState = .running) : step s = runSlot s := by simp only [step, h]

theorem step_of_faulted {r : FaultRecord} (h : s.runState = .faulted r) : step s = .fault (.contractViolation r) := by
  simp only [step, h]

theorem runSlot_of_ipt_zero (h : s.ipt = 0) : runSlot s = .next ((beginSlot s).timerTick.setBatchDone 0) := if_pos h

theorem runSlot_of_instrStep (h : s.ipt ≠ 0) (ht : instrStep (beginSlot s) = .next t) : runSlot s = .next (endSlot t) := by
  simp only [runSlot, h, if_false, ht, onNext]

theorem runSlot_completes (s : State) : ∃ t, runSlot s = .next t := by
  by_cases h : s.ipt = 0
  · exact ⟨_, runSlot_of_ipt_zero h⟩
  · obtain ⟨t, ht⟩ := instrStep_completes (beginSlot s)
    exact ⟨_, runSlot_of_instrStep h ht⟩

/-- A slot that is not the last of its batch ends with the position moved on. -/
theorem endSlot_of_more (h : s.runState = .running) (hmore : s.batchDone + 1 < s.ipt) :
    endSlot s = s.setBatchDone (s.batchDone + 1) := by
  simp only [endSlot, h, if_pos hmore]

/-- The last slot of a batch ends with the timer tick. -/
theorem endSlot_of_last (h : s.runState = .running) (hlast : ¬ s.batchDone + 1 < s.ipt) :
    endSlot s = s.timerTick.setBatchDone 0 := by
  simp only [endSlot, h, if_neg hlast]

/-- A halt or a fault ends the `Cycle` without a tick. -/
theorem endSlot_of_not_running (h : s.runState ≠ .running) : endSlot s = s.setBatchDone 0 := by
  rcases hs : s.runState with _ | x | r
  · exact absurd hs h
  · simp only [endSlot, hs]
  · simp only [endSlot, hs]

/-! ## The statements about the fetch and the step -/

/-- The two bytes that the model's fetch reads make the word of the statement. -/
theorem wordAtPc_eq {w : Word}
    (h : w.toNat = (s.mem.read s.pc.toNat).toNat * 256 + (s.mem.read (s.pc.toNat + 1)).toNat) : s.wordAtPc = w :=
  BitVec.eq_of_toNat_eq ((wordOfBytes_toNat _ _).trans h.symm)

/-- Settles O44, by the two cases of the fetch. -/
theorem fetchIsBigEndianOrFaults : Obligations.FetchIsBigEndianOrFaults := by
  intro s
  refine ⟨fun hlt w hw => ?_, fun hge => ⟨_, instrStep_of_ge hge, rfl, only_setRunState s _⟩⟩
  rw [instrStep_of_lt hlt, wordAtPc_eq hw]
  rfl

/-- Settles O45: the store is in bounds and leaves PC, so the fetch reads V0 and V1 at the first two addresses. -/
theorem storedWordIsFetchedNext : Obligations.StoredWordIsFetchedNext := by
  intro x s hx hi hbound
  have haddr : s.effAddr 0 = s.pc.toNat := by rw [State.effAddr, hi, Nat.add_zero]
  have hlength : s.effAddr 0 + (s.regRange x).length ≤ 4096 := by rw [haddr, State.regRange_length, ← hi]; omega
  have hread (j : Reg) (hj : j.val ≤ x.val) :
      (s.mem.writeAll (s.effAddr 0) (s.regRange x)).read (s.pc.toNat + j.val) = s.reg j := by
    rw [haddr, Memory.read_writeAll, if_pos (Nat.le_add_right _ _), Nat.add_sub_cancel_left,
      State.regRange_getElem? s x j hj, Option.getD_some]
  have hword : (s.setMem (s.mem.writeAll (s.effAddr 0) (s.regRange x))).wordAtPc =
      wordOfBytes (s.reg 0) (s.reg 1) :=
    congrArg₂ wordOfBytes (hread 0 (Nat.zero_le _)) (hread 1 hx)
  have hlt : s.pc.toNat + 1 < 4096 := by rw [← hi]; omega
  have hstep := instrStep_of_lt (s := s.setMem (s.mem.writeAll (s.effAddr 0) (s.regRange x))) hlt
  rw [hword] at hstep
  exact ⟨_, congrArg Host.Outcome.next (State.storeBytes_ok s (.storeRegs x) hlength), hstep⟩

/-- Settles O46: in Running a slot completes, in Halted nothing happens, and Faulted is the one state that stops. -/
theorem onlyFaultedStepsStop : Obligations.OnlyFaultedStepsStop := by
  intro s
  refine ⟨fun hs => ?_, fun r => step_of_faulted⟩
  rcases hrun : s.runState with _ | x | r
  · rw [step_of_running hrun]
    exact runSlot_completes s
  · exact ⟨s, step_of_halted hrun⟩
  · simp only [State.isFaulted, hrun] at hs
    cases hs

/-- The state that the statement runs the instruction in is the one that the slot runs it in. -/
theorem slotStart_eq (s : State) : slotStart s = (beginSlot s).setPc (s.pc + 2) := by
  by_cases h : s.batchDone = 0
  · rw [beginSlot_of_first h, slotStart, if_pos h, if_pos h]
    rfl
  · rw [beginSlot_of_later h, slotStart, if_neg h, if_neg h]
    rfl

/-- The tick as the statement writes it: natural subtraction. -/
theorem timerTick_eq (s : State) : s.timerTick = { s with
    dt := BitVec.ofNat 8 (s.dt.toNat - 1)
    st := BitVec.ofNat 8 (s.st.toNat - 1)
    soundActive := decide (s.st.toNat > 1) } := by
  have hcount (b : Byte) : countDown b = BitVec.ofNat 8 (b.toNat - 1) := by
    rw [← countDown_toNat, BitVec.ofNat_toNat, BitVec.setWidth_eq]
  have hsound : ((countDown s.st).toNat > 0) = (s.st.toNat > 1) := by
    rw [countDown_toNat]
    exact propext Nat.sub_pos_iff_lt
  simp only [State.timerTick, hsound]
  simp only [hcount]

theorem slotEnd_eq (t : State) : slotEnd t = endSlot t := by
  obtain ⟨v, i, pc, stack, sp, mem, dt, st, fb, dirty, soundActive, key, runState, ipt, batchDone, draws⟩ := t
  cases runState with
  | running =>
    simp only [slotEnd, endSlot, timerTick_eq]
    rfl
  | halted x => rfl
  | faulted r => rfl

/-- Settles O43: the slot fetches the two bytes, and every instruction answers a next state. -/
theorem stepRunsTheDecodedInstruction : Obligations.StepRunsTheDecodedInstruction := by
  intro s i hs hipt hlt hdecode
  have hi : decodeWord (beginSlot s).wordAtPc = i := by
    rw [State.wordAtPc, beginSlot_mem, beginSlot_pc]
    exact congrArg Prod.fst (Except.ok.inj hdecode)
  obtain ⟨t, ht⟩ := exec_completes i (slotStart s)
  refine ⟨t, ht, ?_⟩
  rw [slotStart_eq, ← beginSlot_pc s, ← hi, ← instrStep_of_lt (by rwa [beginSlot_pc])] at ht
  rw [step_of_running hs, runSlot_of_instrStep hipt.ne' ht, slotEnd_eq]

end Sys2Proof.Machine
end

section
/-! PROOFS. The `Cycle` (spec/40_interpreter_cycle.md R110 to R116) and its steps (log 1). -/

namespace Sys2Proof.Machine

open Sys2Proof Sys2Proof.Claims

variable {s t u : State}

/-! ## The batch -/

theorem batch_succ_of_running {n : Nat} (h : instrStep s = .next u) (hu : u.runState = .running) :
    batch (n + 1) s = batch n u := by
  simp only [batch, h, onNext, hu]

theorem batch_succ_of_not_running {n : Nat} (h : instrStep s = .next u) (hu : u.runState ≠ .running) :
    batch (n + 1) s = .next u := by
  rcases hrun : u.runState with _ | x | r
  · exact absurd hrun hu
  · simp only [batch, h, onNext, hrun]
  · simp only [batch, h, onNext, hrun]

theorem batch_completes (n : Nat) (s : State) : ∃ t, batch n s = .next t := by
  induction n generalizing s with
  | zero => exact ⟨s, rfl⟩
  | succ n ih =>
    obtain ⟨u, hu⟩ := instrStep_completes s
    by_cases hrun : u.runState = .running
    · rw [batch_succ_of_running hu hrun]
      exact ih u
    · exact ⟨u, batch_succ_of_not_running hu hrun⟩

/-- What every instruction step keeps, a batch keeps. -/
theorem batch_induction {P : State → Prop} (hstep : ∀ s t, P s → instrStep s = .next t → P t) {n : Nat} (hs : P s)
    (h : batch n s = .next t) : P t := by
  induction n generalizing s with
  | zero =>
    cases h
    exact hs
  | succ n ih =>
    obtain ⟨u, hu⟩ := instrStep_completes s
    by_cases hrun : u.runState = .running
    · rw [batch_succ_of_running hu hrun] at h
      exact ih (hstep s u hs hu) h
    · rw [batch_succ_of_not_running hu hrun] at h
      cases h
      exact hstep s t hs hu

theorem batch_soundActive {n : Nat} (h : batch n s = .next t) : t.soundActive = s.soundActive :=
  batch_induction (P := fun u => u.soundActive = s.soundActive) (fun _ _ hu hstep => (instrStep_keeps hstep).1.trans hu)
    rfl h

theorem batch_batchDone {n : Nat} (h : batch n s = .next t) : t.batchDone = s.batchDone :=
  batch_induction (P := fun u => u.batchDone = s.batchDone) (fun _ _ hu hstep => (instrStep_keeps hstep).2.2.trans hu)
    rfl h

/-! ## The end of a `Cycle` -/

theorem tickIfRunning_of_running (h : s.runState = .running) : tickIfRunning s = s.timerTick := by
  simp only [tickIfRunning, h]

theorem tickIfRunning_of_not_running (h : s.runState ≠ .running) : tickIfRunning s = s := by
  rcases hrun : s.runState with _ | x | r
  · exact absurd hrun h
  · simp only [tickIfRunning, hrun]
  · simp only [tickIfRunning, hrun]

@[simp] theorem tickIfRunning_runState (s : State) : (tickIfRunning s).runState = s.runState := by
  unfold tickIfRunning; split <;> rfl

@[simp] theorem tickIfRunning_batchDone (s : State) : (tickIfRunning s).batchDone = s.batchDone := by
  unfold tickIfRunning; split <;> rfl

/-- A `Cycle` in Running: the flags are cleared, the batch runs, and the timers tick if it left Running (R113 to R115). -/
theorem cycle_of_running (h : s.runState = .running) (hbatch : batch s.ipt s.clearOutputFlags = .next u) :
    cycle s = .next (tickIfRunning u) := by
  simp only [cycle, h, hbatch, onNext]

theorem cycle_of_not_running (h : s.runState ≠ .running) : cycle s = .next s := by
  rcases hrun : s.runState with _ | x | r
  · exact absurd hrun h
  · exact cycle_of_halted hrun
  · simp only [cycle, hrun]

/-- A `Cycle` in Running that answers `t` ran a batch. -/
theorem exists_batch_of_cycle (hs : s.runState = .running) (h : cycle s = .next t) :
    ∃ u, batch s.ipt s.clearOutputFlags = .next u ∧ t = tickIfRunning u := by
  obtain ⟨u, hu⟩ := batch_completes s.ipt s.clearOutputFlags
  rw [cycle_of_running hs hu] at h
  exact ⟨u, hu, (Host.Outcome.next.inj h).symm⟩

/-! ## A `Cycle` as a run of steps

The steps count the slots in `batchDone`, which `cycle` leaves at 0: so the instruction steps of the two are compared up
to that counter, which no instruction reads or writes. -/

/-- An instruction step does the same whatever the position in the batch. -/
theorem instrStep_setBatchDone (n : Nat) (h : instrStep s = .next t) :
    instrStep (s.setBatchDone n) = .next (t.setBatchDone n) := by
  have hreads : SameReads s (s.setBatchDone n) := ⟨rfl, rfl, rfl, rfl, fun _ _ => rfl, rfl, rfl, rfl, rfl, rfl⟩
  rcases instrStep_performs s with ⟨-, hstep⟩ | ⟨-, i, u, -, hstep⟩
  all_goals
    rw [hstep s (SameReads.refl s)] at h
    cases h
    rw [hstep _ hreads]
  · rfl
  · cases u <;> rfl

/-- From `s` on, some number of steps, at most `n`, ends the `Cycle` in progress in `t`: before its end the core is Running
inside the batch, and if it ends Running it took all `n`. -/
def StepsEndCycle (s : State) (n : Nat) (t : State) : Prop :=
  ∃ k, 1 ≤ k ∧ k ≤ n ∧ Host.Core.run Sys2Proof.core k s = .next t ∧
    (∀ j, 0 < j → j < k → ∃ u : State, Host.Core.run Sys2Proof.core j s = .next u ∧ u.runState = .running ∧
      u.batchDone = s.batchDone + j) ∧
    t.batchDone = 0 ∧ (t.runState = .running → k = n)

theorem run_succ_of_step (k : Nat) (h : step s = .next u) :
    Host.Core.run Sys2Proof.core (k + 1) s = Host.Core.run Sys2Proof.core k u := by
  have hstep : Host.Core.step Sys2Proof.core s = .next u := h
  simp only [Host.Core.run, hstep]

/-- The step ends the `Cycle`. -/
theorem stepsEndCycle_of_last {n : Nat} (h : step s = .next t) (ht : t.batchDone = 0)
    (hn : t.runState = .running → n = 0) : StepsEndCycle s (n + 1) t :=
  ⟨1, le_rfl, by omega, run_succ_of_step 0 h, fun j hj hj' => absurd hj' (by omega), ht, fun hrun => by rw [hn hrun]⟩

/-- The step goes on to the next slot. -/
theorem stepsEndCycle_of_next {n : Nat} (h : step s = .next u) (hrun : u.runState = .running)
    (hdone : u.batchDone = s.batchDone + 1) (hu : StepsEndCycle u n t) : StepsEndCycle s (n + 1) t := by
  obtain ⟨k, hk, hkn, hend, hbetween, ht, hall⟩ := hu
  refine ⟨k + 1, by omega, by omega, (run_succ_of_step k h).trans hend, fun j hj hj' => ?_, ht, fun ht => by rw [hall ht]⟩
  obtain ⟨j, rfl⟩ := Nat.exists_eq_succ_of_ne_zero hj.ne'
  rcases Nat.eq_zero_or_pos j with rfl | hpos
  · exact ⟨u, run_succ_of_step 0 h, hrun, hdone⟩
  · obtain ⟨u', hrun', hs', hdone'⟩ := hbetween j hpos (by omega)
    exact ⟨u', (run_succ_of_step j h).trans hrun', hs', by omega⟩

/-- One slot, with `n` more after it, beside the batch of `n + 1` instructions that `cycle` runs: the slot ends the `Cycle`
as the batch and the tick do, or `n` slots are left and so are `n` instructions. -/
theorem step_cases_of_batch {n : Nat} (hs : s.runState = .running) (hn : s.batchDone + (n + 1) = s.ipt)
    (hbatch : batch (n + 1) ((beginSlot s).setBatchDone 0) = .next t) :
    (step s = .next (tickIfRunning t) ∧ t.batchDone = 0 ∧ (t.runState = .running → n = 0)) ∨
    ∃ u, step s = .next u ∧ u.runState = .running ∧ u.batchDone = s.batchDone + 1 ∧ 0 < n ∧ u.batchDone + n = u.ipt ∧
      batch n ((beginSlot u).setBatchDone 0) = .next t := by
  obtain ⟨u, hu⟩ := instrStep_completes (beginSlot s)
  obtain ⟨-, hipt, hdone⟩ := instrStep_keeps hu
  rw [beginSlot_ipt] at hipt
  rw [beginSlot_batchDone] at hdone
  have hstep : step s = .next (endSlot u) := by rw [step_of_running hs, runSlot_of_instrStep (by omega) hu]
  have hbegin : instrStep ((beginSlot s).setBatchDone 0) = .next (u.setBatchDone 0) := instrStep_setBatchDone 0 hu
  by_cases hrun : u.runState = .running
  · rw [batch_succ_of_running hbegin hrun] at hbatch
    rcases Nat.eq_zero_or_pos n with rfl | hpos
    · cases hbatch
      refine .inl ⟨?_, rfl, fun _ => rfl⟩
      rw [hstep, endSlot_of_last hrun (by omega), tickIfRunning_of_running (s := u.setBatchDone 0) hrun]
      rfl
    · rw [endSlot_of_more hrun (by omega)] at hstep
      refine .inr ⟨_, hstep, hrun, by rw [State.setBatchDone_batchDone, hdone], hpos, ?_, ?_⟩
      · rw [State.setBatchDone_batchDone, State.setBatchDone_ipt]
        omega
      · rw [beginSlot_of_later (Nat.succ_ne_zero _)]
        exact hbatch
  · rw [batch_succ_of_not_running hbegin hrun] at hbatch
    cases hbatch
    refine .inl ⟨?_, rfl, fun h => absurd h hrun⟩
    rw [hstep, endSlot_of_not_running hrun, tickIfRunning_of_not_running (s := u.setBatchDone 0) hrun]

/-- With `n` more slots after the one that begins in `s`, the steps end as the batch of `n + 1` instructions and the tick
do. -/
theorem stepsEndCycle_of_batch {n : Nat} (hs : s.runState = .running) (hn : s.batchDone + (n + 1) = s.ipt)
    (hbatch : batch (n + 1) ((beginSlot s).setBatchDone 0) = .next t) : StepsEndCycle s (n + 1) (tickIfRunning t) := by
  induction n generalizing s with
  | zero =>
    rcases step_cases_of_batch hs hn hbatch with ⟨hstep, hdone, -⟩ | ⟨u, -, -, -, hpos, -⟩
    · exact stepsEndCycle_of_last hstep ((tickIfRunning_batchDone t).trans hdone) fun _ => rfl
    · exact absurd hpos (lt_irrefl 0)
  | succ n ih =>
    rcases step_cases_of_batch hs hn hbatch with ⟨hstep, hdone, hall⟩ | ⟨u, hstep, hrun, hdone, -, hleft, hrest⟩
    · rw [← tickIfRunning_runState] at hall
      exact stepsEndCycle_of_last hstep ((tickIfRunning_batchDone t).trans hdone) hall
    · exact stepsEndCycle_of_next hstep hrun hdone (ih hrun hleft hrest)

theorem stepsEndCycle_of_ipt_zero (hs : s.runState = .running) (hdone : s.batchDone = 0) (hipt : s.ipt = 0) :
    StepsEndCycle s 1 s.clearOutputFlags.timerTick := by
  have hend : s.clearOutputFlags.timerTick.setBatchDone 0 = s.clearOutputFlags.timerTick := by
    rw [← hdone]
    rfl
  refine stepsEndCycle_of_last ?_ hdone fun _ => rfl
  rw [step_of_running hs, runSlot_of_ipt_zero hipt, beginSlot_of_first hdone, hend]

/-- Settles O47: with IPT = 0 one step is the whole `Cycle`; otherwise its steps are its batch. -/
theorem cycleIsItsSteps : Obligations.CycleIsItsSteps := by
  intro s hs hdone
  obtain ⟨t, hbatch⟩ := batch_completes s.ipt s.clearOutputFlags
  have hcycle := cycle_of_running hs hbatch
  have hsteps : StepsEndCycle s (max 1 s.ipt) (tickIfRunning t) := by
    rcases hipt : s.ipt with _ | n
    · rw [hipt] at hbatch
      cases hbatch
      rw [tickIfRunning_of_running (s := s.clearOutputFlags) hs]
      exact stepsEndCycle_of_ipt_zero hs hdone hipt
    · have hbegin : (beginSlot s).setBatchDone 0 = s.clearOutputFlags := by
        rw [beginSlot_of_first hdone, ← hdone]
        rfl
      rw [← hbegin, hipt] at hbatch
      rw [Nat.max_eq_right (Nat.succ_pos n)]
      exact stepsEndCycle_of_batch hs (by omega) hbatch
  obtain ⟨k, hk, hkn, hend, hbetween, ht, hall⟩ := hsteps
  rw [hdone] at hbetween
  exact ⟨k, hk, hkn, hend.trans hcycle.symm, fun j hj hj' => by simpa using hbetween j hj hj', _, hcycle, ht, hall⟩

/-- Settles O48: a batch keeps the cleared flag, and the tick sets it. -/
theorem soundActiveAfterCycle : Obligations.SoundActiveAfterCycle := by
  intro s t hcycle
  refine ⟨fun hs ht => ?running, fun hs ht => ?stopped, fun hs => ?skipped⟩
  case skipped =>
    rw [cycle_of_not_running hs] at hcycle
    cases hcycle
    rfl
  all_goals
    obtain ⟨u, hbatch, rfl⟩ := exists_batch_of_cycle hs hcycle
    rw [tickIfRunning_runState] at ht
  case running =>
    rw [tickIfRunning_of_running ht]
    exact decide_eq_true_iff
  case stopped =>
    rw [tickIfRunning_of_not_running ht]
    exact batch_soundActive hbatch

/-- Settles O50: the batch of no instruction is empty, so what is left is the clearing and the tick. -/
theorem cycleWithoutSlotsOnlyTicks : Obligations.CycleWithoutSlotsOnlyTicks := by
  intro s hs hipt
  have hbatch : batch s.ipt s.clearOutputFlags = .next s.clearOutputFlags := by rw [hipt]; rfl
  refine ⟨s.clearOutputFlags.timerTick, (cycle_of_running hs hbatch).trans (congrArg _ (tickIfRunning_of_running hs)),
    countDown_toNat s.dt, countDown_toNat s.st, rfl, decide_eq_true_iff, fun e he => ?_⟩
  cases e
  case dt | st | dirty | soundActive => exact absurd (by simp) he
  all_goals exact rfl

end Sys2Proof.Machine
end

section
/-! PROOFS. The canonical form of memory (log 8): a memory in it is determined by what it reads as. -/

namespace Sys2Proof.Machine

/-- An address below every listed cell is not listed. -/
theorem Memory.read_of_forall_lt {m : Memory} {a : Nat} (h : ∀ c ∈ m, a < c.1) : m.read a = Memory.unlisted a := by
  induction m with
  | nil => rfl
  | cons c rest ih =>
    obtain ⟨b, v⟩ := c
    have hab : a < b := h (b, v) List.mem_cons_self
    rw [Memory.read, if_neg hab.ne]
    exact ih fun d hd => h d (List.mem_cons_of_mem _ hd)

theorem Memory.wf_cons {c : Host.Cell} {m : Memory} :
    Memory.wf (c :: m) ↔ (∀ d ∈ m, c.1 < d.1) ∧ c.1 < 4096 ∧ c.2 ≠ Memory.unlisted c.1 ∧ m.wf := by
  simp only [Memory.wf, List.pairwise_cons, List.forall_mem_cons, Config.memSize]
  tauto

/-- The first listed cell does not read as unlisted. -/
theorem Memory.read_head (a : Nat) (u : Byte) (m : Memory) : Memory.read ((a, u) :: m) a = u := if_pos rfl

/-- The cell that one memory lists first is listed by the other, or both would read it as unlisted. -/
theorem Memory.head_addr_le {a b : Nat} {u v : Byte} {m n : Memory} (hm : Memory.wf ((a, u) :: m))
    (hn : Memory.wf ((b, v) :: n)) (h : ∀ x, Memory.read ((a, u) :: m) x = Memory.read ((b, v) :: n) x) : b ≤ a := by
  by_contra hlt
  obtain ⟨hbelow, -⟩ := Memory.wf_cons.1 hn
  obtain ⟨-, -, hu, -⟩ := Memory.wf_cons.1 hm
  have hnone : Memory.read ((b, v) :: n) a = Memory.unlisted a :=
    Memory.read_of_forall_lt (List.forall_mem_cons.2 ⟨by omega, fun d hd => (show a < b by omega).trans (hbelow d hd)⟩)
  exact hu (by rw [← Memory.read_head a u m, h a, hnone])

theorem Memory.eq_nil_of_read_eq_unlisted {m : Memory} (hm : m.wf) (h : ∀ a, m.read a = Memory.unlisted a) : m = [] := by
  cases m with
  | nil => rfl
  | cons c rest =>
    obtain ⟨-, -, hc, -⟩ := Memory.wf_cons.1 hm
    exact absurd ((Memory.read_head c.1 c.2 rest).symm.trans (h c.1)) hc

/-- Two memories whose first cells are at one address read alike after them too. -/
theorem Memory.read_tail_eq {a : Nat} {u v : Byte} {m n : Memory} (hm : Memory.wf ((a, u) :: m))
    (hn : Memory.wf ((a, v) :: n)) (h : ∀ x, Memory.read ((a, u) :: m) x = Memory.read ((a, v) :: n) x) (x : Nat) :
    m.read x = n.read x := by
  by_cases hx : x = a
  · subst hx
    rw [Memory.read_of_forall_lt (Memory.wf_cons.1 hm).1, Memory.read_of_forall_lt (Memory.wf_cons.1 hn).1]
  · have hread := h x
    rwa [Memory.read, if_neg hx, Memory.read, if_neg hx] at hread

theorem Memory.eq_of_read_eq {m n : Memory} (hm : m.wf) (hn : n.wf) (h : ∀ a, m.read a = n.read a) : m = n := by
  induction m generalizing n with
  | nil => exact (Memory.eq_nil_of_read_eq_unlisted hn fun a => (h a).symm).symm
  | cons c m ih =>
    cases n with
    | nil => exact Memory.eq_nil_of_read_eq_unlisted hm h
    | cons d n =>
      obtain ⟨a, u⟩ := c
      obtain ⟨b, v⟩ := d
      obtain rfl : a = b := le_antisymm (Memory.head_addr_le hn hm fun x => (h x).symm) (Memory.head_addr_le hm hn h)
      have huv : u = v := by rw [← Memory.read_head a u m, h a, Memory.read_head]
      obtain ⟨-, -, -, hmwf⟩ := Memory.wf_cons.1 hm
      obtain ⟨-, -, -, hnwf⟩ := Memory.wf_cons.1 hn
      rw [huv, ih hmwf hnwf (Memory.read_tail_eq hm hn h)]

/-- Settles O58, by induction along both lists of cells. -/
theorem canonicalMemoriesThatReadAlikeAreEqual : Obligations.CanonicalMemoriesThatReadAlikeAreEqual :=
  fun _ _ hm hn h => Memory.eq_of_read_eq hm hn h

end Sys2Proof.Machine
end

section
/-! PROOFS. The invariant (spec/10_state.md, log 1, log 8, log 10): an instruction step keeps the bounds of memory, PC and
the stack, a slot keeps the position in its batch, and a host call between two `Cycle` calls ends between two. -/

namespace Sys2Proof.Machine

open Sys2Proof Sys2Proof.Claims

variable {s t : State}

/-- The part of the invariant that an instruction can touch. -/
structure State.Bounded (s : State) : Prop where
  memWf : s.mem.wf
  pcBounded : s.pcBounded
  stackBounded : s.stackBounded

theorem State.Inv.bounded (h : s.Inv) : s.Bounded := ⟨h.memWf, h.pcBounded, h.stackBounded⟩

/-- Between two `Cycle` calls the invariant is the bounds. -/
theorem State.Bounded.inv (h : s.Bounded) (hdone : s.batchDone = 0) : s.Inv :=
  ⟨h.memWf, h.pcBounded, h.stackBounded, .inl hdone, fun _ => hdone⟩

/-- The bounds are of memory, PC, SP and the stack alone. -/
theorem State.Bounded.congr (h : s.Bounded) (hmem : t.mem = s.mem) (hpc : t.pc = s.pc) (hsp : t.sp = s.sp)
    (hstack : t.stack = s.stack) : t.Bounded := by
  refine ⟨hmem ▸ h.memWf, ?pc, ?stack⟩
  case pc =>
    rw [State.pcBounded, hpc]
    exact h.pcBounded
  case stack =>
    rw [State.stackBounded, hsp, hstack]
    exact h.stackBounded

theorem State.Bounded.clearOutputFlags (h : s.Bounded) : s.clearOutputFlags.Bounded := h.congr rfl rfl rfl rfl

theorem State.Bounded.timerTick (h : s.Bounded) : s.timerTick.Bounded := h.congr rfl rfl rfl rfl

theorem State.Bounded.setBatchDone (h : s.Bounded) (n : Nat) : (s.setBatchDone n).Bounded := h.congr rfl rfl rfl rfl

/-! ## One instruction -/

variable {i : Instr} {u : Update}

theorem Update.apply_memWf (hu : u.Allowed i s) (h : s.mem.wf) : (u.apply i s).mem.wf := by
  cases u
  case store | storeFault => exact hu.2 h
  all_goals exact h

/-- A jump goes where its operand says, a skip two past PC, a return where a call pushed. -/
theorem Update.apply_pcBounded (hu : u.Allowed i s) (hpc : s.pc.toNat ≤ 0x1000) (h : s.stackBounded) :
    (u.apply i s).pcBounded := by
  cases u
  case jump w =>
    obtain ⟨-, hw | rfl | rfl⟩ := hu
    · exact hw
    · exact hpc.trans (by decide)
    · have hskip : (s.pc + 2).toNat = (s.pc.toNat + 2) % 65536 := BitVec.toNat_add s.pc 2
      exact hskip.le.trans (by omega)
  case call j pushed target =>
    obtain ⟨-, -, -, -, htarget⟩ := hu
    exact htarget.trans (by decide)
  case ret j target =>
    obtain ⟨-, -, hsp, rfl⟩ := hu
    exact (h j (by omega)).trans (by decide)
  all_goals exact hpc.trans (by decide)

/-- A call pushes PC, and a return frees a slot. -/
theorem Update.apply_stackBounded (hu : u.Allowed i s) (hpc : s.pc.toNat ≤ 0x1000) (h : s.stackBounded) :
    (u.apply i s).stackBounded := by
  cases u
  case call j pushed target =>
    obtain ⟨-, -, hsp, rfl, -⟩ := hu
    intro k hk
    have hk : k.val < j.val + 1 := hk
    show ((s.stack.set j.val s.pc)[k.val]).toNat ≤ 0x1000
    rw [Vector.getElem_set]
    split
    · exact hpc
    · exact h k (by omega)
  case ret j target =>
    obtain ⟨-, -, hsp, -⟩ := hu
    intro k hk
    have hk : k.val < j.val := hk
    exact h k (by omega)
  all_goals exact h

theorem instrStep_bounded (h : s.Bounded) (hstep : instrStep s = .next t) : t.Bounded := by
  rcases instrStep_performs s with ⟨-, hfault⟩ | ⟨hlt, i, u, hu, hperforms⟩
  · rw [hfault s (SameReads.refl s)] at hstep
    cases hstep
    exact h.congr rfl rfl rfl rfl
  · rw [hperforms s (SameReads.refl s)] at hstep
    cases hstep
    have hpc : (s.setPc (s.pc + 2)).pc.toNat ≤ 0x1000 := by
      have hadd : (s.pc + 2).toNat = (s.pc.toNat + 2) % 65536 := BitVec.toNat_add s.pc 2
      rw [State.setPc_pc, hadd]
      omega
    exact ⟨Update.apply_memWf hu h.memWf, Update.apply_pcBounded hu hpc h.stackBounded,
      Update.apply_stackBounded hu hpc h.stackBounded⟩

/-! ## One step -/

theorem beginSlot_bounded (h : s.Bounded) : (beginSlot s).Bounded := h.congr (by simp) (by simp) (by simp) (by simp)

/-- The end of a slot leaves the position inside the batch, and 0 where the `Cycle` has ended. -/
theorem endSlot_inv (h : s.Bounded) : (endSlot s).Inv := by
  by_cases hrun : s.runState = .running
  · by_cases hmore : s.batchDone + 1 < s.ipt
    · rw [endSlot_of_more hrun hmore]
      exact ⟨h.memWf, h.pcBounded, h.stackBounded, .inr hmore, fun hstop => absurd hrun hstop⟩
    · rw [endSlot_of_last hrun hmore]
      exact (h.timerTick.setBatchDone 0).inv rfl
  · rw [endSlot_of_not_running hrun]
    exact (h.setBatchDone 0).inv rfl

theorem runSlot_inv (h : s.Bounded) (hstep : runSlot s = .next t) : t.Inv := by
  have hbegin := beginSlot_bounded h
  by_cases hipt : s.ipt = 0
  · rw [runSlot_of_ipt_zero hipt] at hstep
    cases hstep
    exact (hbegin.timerTick.setBatchDone 0).inv rfl
  · obtain ⟨u, hu⟩ := instrStep_completes (beginSlot s)
    rw [runSlot_of_instrStep hipt hu] at hstep
    cases hstep
    exact endSlot_inv (instrStep_bounded hbegin hu)

/-- Settles O55: memory lists nothing, no slot is occupied, and PC is 0x200. -/
theorem resetMeetsTheInvariant : Obligations.ResetMeetsTheInvariant :=
  State.Bounded.inv ⟨Memory.wf_nil, by decide, fun _ hj => absurd hj (Nat.not_lt_zero _)⟩ rfl

/-- Settles O56: a step in Running is a slot, a step in Halted changes nothing, and in Faulted there is none. -/
theorem stepKeepsTheInvariant : Obligations.StepKeepsTheInvariant := by
  intro s t h hstep
  rcases hrun : s.runState with _ | x | r
  · rw [step_of_running hrun] at hstep
    exact runSlot_inv h.bounded hstep
  · rw [step_of_halted hrun] at hstep
    cases hstep
    exact h
  · rw [step_of_faulted hrun] at hstep
    cases hstep

/-! ## Construction and the host calls -/

theorem construct_inv (font : Vector Byte 80) (ipt rng : Nat) : (construct font ipt rng).Inv := by
  have hlength : 0 + font.toList.length ≤ 4096 := by simp
  exact State.Bounded.inv ⟨Memory.wf_writeAll Memory.wf_nil hlength, resetMeetsTheInvariant.pcBounded,
    resetMeetsTheInvariant.stackBounded⟩ rfl

/-- A program that fits is loaded (R355). -/
theorem insertProgram_of_le {bytes : List Byte} (h : bytes.length ≤ 3584) (s : State) : insertProgram bytes s =
    .ok ((s.setMem (s.mem.writeAll 0x200 bytes)).setPc (BitVec.ofNat 16 Config.progStart)) := by
  have hfits : ¬ 0x200 + bytes.length > 4096 := by omega
  simp only [insertProgram, Memory.loadBulk, if_neg hfits]

/-- A program that does not fit is rejected (R356). -/
theorem insertProgram_of_gt {bytes : List Byte} (h : 3584 < bytes.length) (s : State) :
    insertProgram bytes s = .error .loadTooLarge := by
  have hlarge : 0x200 + bytes.length > 4096 := by omega
  simp only [insertProgram, Memory.loadBulk, if_pos hlarge]

theorem insertProgram_bounded {bytes : List Byte} (h : s.Bounded) (hload : insertProgram bytes s = .ok t) : t.Bounded := by
  rcases Nat.lt_or_ge 3584 bytes.length with hgt | hle
  · rw [insertProgram_of_gt hgt] at hload
    cases hload
  · rw [insertProgram_of_le hle] at hload
    cases hload
    exact ⟨Memory.wf_writeAll h.memWf (by omega), show (0x200 : Word).toNat ≤ 0x10FE by decide, h.stackBounded⟩

@[simp] theorem resolveWait_mem (k : Reg) (s : State) : (resolveWait k s).mem = s.mem := by
  unfold resolveWait; split <;> rfl
@[simp] theorem resolveWait_pc (k : Reg) (s : State) : (resolveWait k s).pc = s.pc := by
  unfold resolveWait; split <;> rfl
@[simp] theorem resolveWait_sp (k : Reg) (s : State) : (resolveWait k s).sp = s.sp := by
  unfold resolveWait; split <;> rfl
@[simp] theorem resolveWait_stack (k : Reg) (s : State) : (resolveWait k s).stack = s.stack := by
  unfold resolveWait; split <;> rfl
@[simp] theorem resolveWait_batchDone (k : Reg) (s : State) : (resolveWait k s).batchDone = s.batchDone := by
  unfold resolveWait; split <;> rfl

theorem tickIfRunning_bounded (h : s.Bounded) : (tickIfRunning s).Bounded := by
  by_cases hrun : s.runState = .running
  · rw [tickIfRunning_of_running hrun]
    exact h.timerTick
  · rwa [tickIfRunning_of_not_running hrun]

theorem cycle_bounded (h : s.Bounded) (hcycle : cycle s = .next t) : t.Bounded := by
  by_cases hrun : s.runState = .running
  · obtain ⟨u, hbatch, rfl⟩ := exists_batch_of_cycle hrun hcycle
    exact tickIfRunning_bounded (batch_induction (fun _ _ => instrStep_bounded) h.clearOutputFlags hbatch)
  · rw [cycle_of_not_running hrun] at hcycle
    cases hcycle
    exact h

theorem cycle_batchDone (hcycle : cycle s = .next t) : t.batchDone = s.batchDone := by
  by_cases hrun : s.runState = .running
  · obtain ⟨u, hbatch, rfl⟩ := exists_batch_of_cycle hrun hcycle
    have hkept : u.batchDone = s.clearOutputFlags.batchDone := batch_batchDone hbatch
    exact (tickIfRunning_batchDone u).trans hkept
  · rw [cycle_of_not_running hrun] at hcycle
    cases hcycle
    rfl

/-- A host call keeps the bounds and the position in the batch. -/
theorem hostCall_bounded {c : HostCall} (h : s.Bounded) (hrun : c.run s = .done t) :
    t.Bounded ∧ t.batchDone = s.batchDone := by
  cases c with
  | insertProgram bytes =>
    have hload := HostResult.ofExcept_eq_done.1 hrun
    refine ⟨insertProgram_bounded h hload, ?_⟩
    rw [eq_of_insertProgram_ok hload, State.setPc_batchDone, State.setMem_batchDone]
  | cycle =>
    have hcycle := HostCall.run_cycle_eq_done hrun
    exact ⟨cycle_bounded h hcycle, cycle_batchDone hcycle⟩
  | setKeyDown k =>
    obtain ⟨j, -, rfl⟩ := eq_of_setKeyDown_ok (HostResult.ofExcept_eq_done.1 hrun)
    exact ⟨h.congr (by simp) (by simp) (by simp) (by simp), by simp⟩
  | setKeyUp k =>
    obtain ⟨j, -, rfl⟩ := eq_of_setKeyUp_ok (HostResult.ofExcept_eq_done.1 hrun)
    exact ⟨h.congr rfl rfl rfl rfl, rfl⟩

/-- Settles O57: between two `Cycle` calls the invariant is the bounds, and every host call keeps these. -/
theorem hostCallsKeepTheInvariant : Obligations.HostCallsKeepTheInvariant := by
  refine ⟨construct_inv, fun c s t h hdone hrun => ?_⟩
  obtain ⟨hbounded, hkept⟩ := hostCall_bounded h.bounded hrun
  exact ⟨hbounded.inv (hkept.trans hdone), hkept.trans hdone⟩

end Sys2Proof.Machine
end

section
/-! PROOFS. Stale stack slots (R29, D27, log 24): two states that differ in slots at SP and above alone agree in all that is
read, perform the same update, and differ in no more afterwards. -/

namespace Sys2Proof.Machine

open Sys2Proof Sys2Proof.Claims

/-- The same state with another stack. -/
def State.withStack (s : State) (k : Vector Word 16) : State := { s with stack := k }

/-- The slots below SP hold the same in both stacks. -/
def SameOccupied (s : State) (k : Vector Word 16) : Prop := ∀ j : Fin 16, j.val < s.sp.val → k[j] = s.stack[j]

variable {s : State} {k : Vector Word 16}

theorem sameButStaleSlots_withStack (h : SameOccupied s k) : SameButStaleSlots s (s.withStack k) := ⟨rfl, h⟩

theorem exists_withStack {t : State} (h : SameButStaleSlots s t) : ∃ k, t = s.withStack k ∧ SameOccupied s k :=
  ⟨t.stack, h⟩

theorem sameReads_withStack (h : SameOccupied s k) : SameReads s (s.withStack k) :=
  ⟨rfl, rfl, rfl, rfl, h, rfl, rfl, rfl, rfl, rfl⟩

/-- A call writes the first stale slot, and a return makes one more slot stale. -/
theorem Update.apply_sameButStaleSlots {i : Instr} {u : Update} (hu : u.Allowed i s) (h : SameOccupied s k) :
    SameButStaleSlots (u.apply i s) (u.apply i (s.withStack k)) := by
  cases u
  case call j pushed target =>
    obtain ⟨-, -, hsp, -⟩ := hu
    refine ⟨rfl, fun m hm => ?_⟩
    have hm : m.val < j.val + 1 := hm
    show (k.set j.val pushed)[m.val] = (s.stack.set j.val pushed)[m.val]
    rw [Vector.getElem_set, Vector.getElem_set]
    split
    · rfl
    · exact h m (by omega)
  case ret j target =>
    obtain ⟨-, -, hsp, -⟩ := hu
    refine ⟨rfl, fun m hm => ?_⟩
    have hm : m.val < j.val := hm
    exact h m (by omega)
  all_goals exact ⟨rfl, h⟩

theorem instrStep_withStack (h : SameOccupied s k) : ∃ (t : State) (l : Vector Word 16),
    instrStep s = .next t ∧ instrStep (s.withStack k) = .next (t.withStack l) ∧ SameOccupied t l := by
  rcases instrStep_performs s with ⟨-, hstep⟩ | ⟨-, i, u, hu, hstep⟩
  · exact ⟨_, k, hstep s (SameReads.refl s), hstep _ (sameReads_withStack h), h⟩
  · have hafter : SameButStaleSlots (u.apply i (s.setPc (s.pc + 2))) (u.apply i ((s.setPc (s.pc + 2)).withStack k)) :=
      Update.apply_sameButStaleSlots hu h
    obtain ⟨l, hl, hsame⟩ := exists_withStack hafter
    exact ⟨_, l, hstep s (SameReads.refl s), (hstep _ (sameReads_withStack h)).trans (congrArg _ hl), hsame⟩

theorem beginSlot_withStack (s : State) (k : Vector Word 16) :
    beginSlot (s.withStack k) = (beginSlot s).withStack k := by
  by_cases hfirst : s.batchDone = 0
  · rw [beginSlot_of_first hfirst, beginSlot_of_first (s := s.withStack k) hfirst]
    rfl
  · rw [beginSlot_of_later hfirst, beginSlot_of_later (s := s.withStack k) hfirst]

theorem endSlot_withStack (h : SameOccupied s k) : SameButStaleSlots (endSlot s) (endSlot (s.withStack k)) := by
  by_cases hrun : s.runState = .running
  · by_cases hmore : s.batchDone + 1 < s.ipt
    · rw [endSlot_of_more hrun hmore, endSlot_of_more (s := s.withStack k) hrun hmore]
      exact ⟨rfl, h⟩
    · rw [endSlot_of_last hrun hmore, endSlot_of_last (s := s.withStack k) hrun hmore]
      exact ⟨rfl, h⟩
  · rw [endSlot_of_not_running hrun, endSlot_of_not_running (s := s.withStack k) hrun]
    exact ⟨rfl, h⟩

theorem runSlot_withStack (h : SameOccupied s k) : Related SameButStaleSlots (runSlot s) (runSlot (s.withStack k)) := by
  have hbegin : SameOccupied (beginSlot s) k := by simpa [SameOccupied] using h
  by_cases hipt : s.ipt = 0
  · rw [runSlot_of_ipt_zero hipt, runSlot_of_ipt_zero (s := s.withStack k) hipt, beginSlot_withStack]
    exact ⟨rfl, hbegin⟩
  · obtain ⟨t, l, hstep, hstep', hsame⟩ := instrStep_withStack hbegin
    rw [← beginSlot_withStack] at hstep'
    rw [runSlot_of_instrStep hipt hstep, runSlot_of_instrStep (s := s.withStack k) hipt hstep']
    exact endSlot_withStack hsame

/-- Settles O59, by RUNSTATE, which is the same in both states. -/
theorem staleSlotsAreNeverRead : Obligations.StaleSlotsAreNeverRead := by
  intro s t h
  obtain ⟨k, rfl, hk⟩ := exists_withStack h
  rcases hrun : s.runState with _ | x | r
  · rw [step_of_running hrun, step_of_running (s := s.withStack k) hrun]
    exact runSlot_withStack hk
  · rw [step_of_halted hrun, step_of_halted (s := s.withStack k) hrun]
    exact sameButStaleSlots_withStack hk
  · rw [step_of_faulted hrun, step_of_faulted (s := s.withStack k) hrun]
    rfl

end Sys2Proof.Machine
end

section
/-! PROOFS. The host interface (spec/60_exceptions.md R330 to R334, spec/70_reset_and_hazards.md R350 to R356): Faulted is for
good, the key calls, the load of a program, and construction. -/

namespace Sys2Proof

/-- The words `Fxkk`, with the byte `kk` beside the family digit as R83 writes them. -/
theorem packXkk_fifteen_toNat (x : Reg) (kk : Byte) :
    (packXkk 0xF x kk).toNat = 0xF000 + kk.toNat + x.val * 256 := by
  have hword : (packXkk 0xF x kk).toNat = 15 * 4096 + x.val * 256 + kk.toNat := packXkk_toNat 0xF x kk
  omega

end Sys2Proof

namespace Sys2Proof.Machine

variable {s : State}

/-! ## What each call does -/

theorem resolveWait_of_not_halted (h : ∀ x, s.runState ≠ .halted x) (k : Reg) : resolveWait k s = s := by
  rcases hrun : s.runState with _ | x | r
  · simp only [resolveWait, hrun]
  · exact absurd hrun (h x)
  · simp only [resolveWait, hrun]

theorem setKeyUp_of_lt {k : Nat} (h : k < 16) (s : State) : setKeyUp k s = .ok (s.setKey ⟨k, h⟩ false) := dif_pos h

theorem setKeyDown_of_lt {k : Nat} (h : k < 16) (s : State) :
    setKeyDown k s = .ok (resolveWait ⟨k, h⟩ (s.setKey ⟨k, h⟩ true)) := dif_pos h

@[simp] theorem resolveWait_keyDown (k j : Reg) (s : State) : (resolveWait k s).keyDown j = s.keyDown j := by
  unfold resolveWait; split <;> rfl

/-! ## What construction leaves -/

theorem Memory.read_writeAll_of_getElem? {m : Memory} {a j : Nat} {bs : List Byte} {b : Byte} (h : bs[j]? = some b) :
    (m.writeAll a bs).read (a + j) = b := by
  rw [Memory.read_writeAll, if_pos (Nat.le_add_right a j), Nat.add_sub_cancel_left, h, Option.getD_some]

/-- What construction leaves in memory: the font, and zero after its 80 bytes, where the default font has ended too. -/
theorem construct_read (font : Vector Byte 80) (ipt rng a : Nat) :
    (construct font ipt rng).mem.read a = (font.toList[a]?).getD 0 := by
  have hwrite : (construct font ipt rng).mem.read a = (font.toList[a]?).getD (Memory.unlisted a) := by
    have hread := Memory.read_writeAll State.reset.mem font.toList 0 a
    rwa [if_pos (Nat.zero_le a), Nat.sub_zero] at hread
  rw [hwrite]
  rcases Nat.lt_or_ge a 80 with hlt | hge
  · rw [List.getElem?_eq_getElem (by rwa [Vector.length_toList]), Option.getD_some, Option.getD_some]
  · have hzero : Memory.unlisted a = 0 := by
      rw [Memory.unlisted, List.getElem?_eq_none (show defaultFont.length ≤ a from hge), Option.getD_none]
    rw [hzero]

/-- With the default font memory is as after reset, for it reads as reset memory does (log 8). -/
theorem construct_mem_of_defaultFont {font : Vector Byte 80} (h : font.toList = defaultFont) (ipt rng : Nat) :
    (construct font ipt rng).mem = State.reset.mem :=
  Memory.eq_of_read_eq (construct_inv font ipt rng).memWf Memory.wf_nil fun a => by
    rw [construct_read, h]
    rfl

theorem State.reset_reg (x : Reg) : State.reset.reg x = 0 := Vector.getElem_replicate x.isLt

theorem State.reset_stack (j : Fin 16) : State.reset.stack[j] = 0 := Vector.getElem_replicate j.isLt

theorem State.reset_keyDown (k : Reg) : State.reset.keyDown k = false := Vector.getElem_replicate k.isLt

theorem State.reset_cell (r : Fin 32) (c : Fin 64) : State.reset.fb.cell r c = false := Framebuffer.cell_clear r c

end Sys2Proof.Machine

namespace Sys2Proof.Claims

open Sys2Proof Sys2Proof.Machine

variable {s t : State}

/-! ## Faulted -/

/-- No host call takes RUNSTATE out of Faulted (R310). -/
theorem runState_of_hostCall_of_faulted {c : HostCall} {r : FaultRecord} (hs : s.runState = .faulted r)
    (hrun : c.run s = .done t) : t.runState = .faulted r := by
  cases c with
  | insertProgram bytes =>
    rw [eq_of_insertProgram_ok (HostResult.ofExcept_eq_done.1 hrun)]
    exact hs
  | cycle =>
    have hcycle := HostCall.run_cycle_eq_done hrun
    rw [cycle_of_not_running (by rw [hs]; simp)] at hcycle
    cases hcycle
    exact hs
  | setKeyDown k =>
    obtain ⟨j, -, rfl⟩ := eq_of_setKeyDown_ok (HostResult.ofExcept_eq_done.1 hrun)
    have hkey : (s.setKey j true).runState = .faulted r := hs
    rwa [resolveWait_of_not_halted (by rw [hkey]; simp)]
  | setKeyUp k =>
    obtain ⟨j, -, rfl⟩ := eq_of_setKeyUp_ok (HostResult.ofExcept_eq_done.1 hrun)
    exact hs

/-- Settles O51, by induction on the list of calls. -/
theorem faultedIsForGood : Obligations.FaultedIsForGood := by
  intro calls s r hs
  refine ⟨?_, cycle_of_not_running (by rw [hs]; simp)⟩
  induction calls generalizing s with
  | nil => exact hs
  | cons c calls ih =>
    rw [runCalls]
    split
    · next hrun => exact ih _ (runState_of_hostCall_of_faulted hs hrun)
    · exact ih s hs
    · exact hs

/-! ## The keys -/

/-- A key-down sets its key, whatever RUNSTATE is. -/
theorem keyDown_setKeyDown (s : State) (k : Reg) : (resolveWait k (s.setKey k true)).keyDown k = true := by
  rw [resolveWait_keyDown, State.setKey_keyDown_self]

/-- A key-down outside Halted sets its key and nothing else (R331). -/
theorem only_keyDown_of_not_halted (h : ∀ x, s.runState ≠ .halted x) (k : Reg) :
    Only [.key k] s (resolveWait k (s.setKey k true)) := by
  rw [resolveWait_of_not_halted (s := s.setKey k true) h]
  exact only_setKey s k true

/-- Settles O52: a call on one of the 16 keys is performed, and any other is rejected. -/
theorem keyCallsSetKeys : Obligations.KeyCallsSetKeys := by
  intro s k
  refine ⟨fun h => ⟨⟨_, setKeyUp_of_lt h s, s.setKey_keyDown_self _ false, only_setKey s _ false⟩,
    ⟨_, setKeyDown_of_lt h s, keyDown_setKeyDown s _, fun hs => only_keyDown_of_not_halted hs _, fun x hs => ?_⟩⟩,
    fun h => ⟨dif_neg (by omega), dif_neg (by omega)⟩⟩
  obtain ⟨hrun, hreg, honly⟩ := keyDown_of_halted hs ⟨k, h⟩
  exact ⟨hreg, hrun, honly.mono (by simp)⟩

/-- Settles O37: the wait is RUNSTATE alone, and a key-down resolves it whatever state the key was in. -/
theorem waitForKeyHaltsUntilKeyDown : Obligations.WaitForKeyHaltsUntilKeyDown := by
  intro x s
  refine ⟨packXkk_fifteen_toNat x 0x0A, s.setRunState (.halted x), rfl, rfl, only_setRunState s _, fun k => ?_⟩
  have hhalted : (s.setRunState (.halted x)).runState = .halted x := rfl
  obtain ⟨hrun, hreg, honly⟩ := keyDown_of_halted hhalted k
  exact ⟨_, setKeyDown_of_lt k.isLt _, hrun, hreg, keyDown_setKeyDown _ k, honly⟩

/-! ## Memory written from an address on -/

/-- A write of bytes from `a` on changes these bytes and nothing else. -/
theorem frame_writeAll (s : State) (a : Nat) (bs : List Byte) :
    Frame (bytesAt a bs.length) s (s.setMem (s.mem.writeAll a bs)) := by
  intro e he
  cases e
  case mem b =>
    refine Memory.read_writeAll_outside s.mem ?_
    by_contra hb
    exact he ⟨b, by omega, by omega, rfl⟩
  all_goals exact rfl

/-- A frame that names more says less. -/
theorem Frame.mono {p q : Elem → Prop} (h : Frame p s t) (hpq : ∀ e, p e → q e) : Frame q s t :=
  fun e he => h e fun hp => he (hpq e hp)

/-- Two frames one after the other: what either names may have changed. -/
theorem Frame.trans {p q : Elem → Prop} {u : State} (hst : Frame p s t) (htu : Frame q t u) :
    Frame (fun e => p e ∨ q e) s u :=
  fun e he => (hst e fun hp => he (.inl hp)).trans (htu e fun hq => he (.inr hq))

/-- Settles O53: a program that fits is written from 0x200 on and PC is set, and one that does not is rejected. -/
theorem insertProgramLoadsOrRejects : Obligations.InsertProgramLoadsOrRejects := by
  intro bytes s
  refine ⟨fun hle => ⟨_, insertProgram_of_le hle s, rfl, fun j b hb => ?_, ?_⟩, fun hgt => insertProgram_of_gt hgt s⟩
  · exact Memory.read_writeAll_of_getElem? hb
  · refine ((frame_writeAll s 0x200 bytes).trans (only_setPc _ _)).mono fun e he => ?_
    exact he.symm.imp_left List.mem_singleton.1

/-! ## Construction -/

theorem only_construct_of_defaultFont {font : Vector Byte 80} (h : font.toList = defaultFont) (rng : Nat) :
    Only [.draws] (construct font 10 rng) State.reset := by
  intro e he
  cases e
  case mem a =>
    rw [Elem.same, construct_mem_of_defaultFont h]
  case draws => exact absurd (List.mem_singleton_self _) he
  all_goals exact rfl

/-- Settles O54: memory by `construct_read`, every other element from reset. -/
theorem constructionState : Obligations.ConstructionState := by
  rintro font ipt rng s rfl
  refine ⟨construct_read font ipt rng, rfl, State.reset_reg, rfl, rfl, rfl, State.reset_stack, rfl, rfl,
    State.reset_cell, rfl, rfl, State.reset_keyDown, rfl, fun hfont hipt => ?_⟩
  subst hipt
  exact ⟨only_construct_of_defaultFont hfont rng, (construct_mem_of_defaultFont hfont 10 rng).symm ▸ rfl⟩

end Sys2Proof.Claims
end

section
/-! PROOFS. The sprite engine (spec/44_display.md R230 to R236): a draw plots the pixels of a list in which no pixel occurs
twice, and these are the covered cells. So a cell is toggled once or not at all, and before its own plot it is as it was. -/

namespace Sys2Proof.Machine

/-! ## Plotting a list of pixels -/

/-- A row and a column of the framebuffer. -/
abbrev Pixel := Fin 32 × Fin 64

/-- Plot the pixels of a list, one after the other. -/
def plotAll (ps : List Pixel) (d : Drawing) : Drawing := ps.foldl (fun d p => plot d p.1 p.2) d

theorem plotAll_cons (p : Pixel) (ps : List Pixel) (d : Drawing) : plotAll (p :: ps) d = plotAll ps (plot d p.1 p.2) := rfl

theorem plotAll_append (ps qs : List Pixel) (d : Drawing) : plotAll (ps ++ qs) d = plotAll qs (plotAll ps d) :=
  List.foldl_append

/-- A plot leaves every other pixel as it is. -/
theorem cell_plot_of_ne (d : Drawing) {p q : Pixel} (h : q ≠ p) :
    (plot d p.1 p.2).1.cell q.1 q.2 = d.1.cell q.1 q.2 := by
  rw [plot_fb, Framebuffer.cell_toggle, if_neg fun hq => h (Prod.ext hq.1 hq.2)]

theorem cell_plot_self (d : Drawing) (p : Pixel) : (plot d p.1 p.2).1.cell p.1 p.2 = !d.1.cell p.1 p.2 := by
  rw [plot_fb, Framebuffer.cell_toggle, if_pos ⟨rfl, rfl⟩]

/-- Pixels that are not listed stay as they are. -/
theorem cell_plotAll_of_not_mem {ps : List Pixel} {q : Pixel} (h : q ∉ ps) (d : Drawing) :
    (plotAll ps d).1.cell q.1 q.2 = d.1.cell q.1 q.2 := by
  induction ps generalizing d with
  | nil => rfl
  | cons p ps ih =>
    rw [List.mem_cons, not_or] at h
    rw [plotAll_cons, ih h.2, cell_plot_of_ne d h.1]

/-- Pixels that are listed once are toggled. -/
theorem cell_plotAll_of_mem {ps : List Pixel} (hnodup : ps.Nodup) {q : Pixel} (h : q ∈ ps) (d : Drawing) :
    (plotAll ps d).1.cell q.1 q.2 = !d.1.cell q.1 q.2 := by
  induction ps generalizing d with
  | nil => cases h
  | cons p ps ih =>
    obtain ⟨hp, hps⟩ := List.nodup_cons.1 hnodup
    rw [plotAll_cons]
    rcases List.mem_cons.1 h with rfl | hq
    · rw [cell_plotAll_of_not_mem hp, cell_plot_self]
    · rw [ih hps hq, cell_plot_of_ne d (ne_of_mem_of_not_mem hq hp)]

/-- The collision: some listed pixel was lit before the first plot. -/
theorem plotAll_collision {ps : List Pixel} (hnodup : ps.Nodup) (d : Drawing) :
    (plotAll ps d).2 = true ↔ d.2 = true ∨ ∃ p ∈ ps, d.1.cell p.1 p.2 = true := by
  induction ps generalizing d with
  | nil => simp [plotAll]
  | cons p ps ih =>
    obtain ⟨hp, hps⟩ := List.nodup_cons.1 hnodup
    have hrest : (∃ q ∈ ps, (plot d p.1 p.2).1.cell q.1 q.2 = true) ↔ ∃ q ∈ ps, d.1.cell q.1 q.2 = true :=
      exists_congr fun q => and_congr_right fun hq => by
        rw [cell_plot_of_ne d (ne_of_mem_of_not_mem hq hp)]
    rw [plotAll_cons, ih hps, hrest, plot_collision, Bool.or_eq_true]
    simp only [List.mem_cons, exists_eq_or_imp, or_assoc]

/-! ## The pixels of a sprite -/

/-- The pixels of one sprite row, left to right. -/
def rowPixels (x0 y0 : Byte) (row : Nat) (b : Byte) : List Pixel :=
  ((List.range 8).filter (spriteBit b)).map fun col => (spriteRow y0 row, spriteCol x0 col)

/-- The pixels of a sprite, whose first row has the given number. -/
def spritePixels (x0 y0 : Byte) : Nat → List Byte → List Pixel
  | _, [] => []
  | row, b :: bs => rowPixels x0 y0 row b ++ spritePixels x0 y0 (row + 1) bs

theorem drawRow_eq_plotAll (x0 y0 : Byte) (row : Nat) (b : Byte) (d : Drawing) :
    drawRow x0 y0 row b d = plotAll (rowPixels x0 y0 row b) d := by
  rw [plotAll, rowPixels, List.foldl_map, List.foldl_filter]
  rfl

theorem drawRows_eq_plotAll (x0 y0 : Byte) (row : Nat) (bs : List Byte) (d : Drawing) :
    drawRows x0 y0 row bs d = plotAll (spritePixels x0 y0 row bs) d := by
  induction bs generalizing row d with
  | nil => rfl
  | cons b bs ih => rw [drawRows, ih, drawRow_eq_plotAll, spritePixels, plotAll_append]

theorem drawSprite_eq_plotAll (x0 y0 : Byte) (rows : List Byte) (fb : Framebuffer) :
    drawSprite x0 y0 rows fb = plotAll (spritePixels x0 y0 0 rows) (fb, false) := drawRows_eq_plotAll x0 y0 0 rows _

theorem mem_rowPixels {x0 y0 : Byte} {row : Nat} {b : Byte} {p : Pixel} : p ∈ rowPixels x0 y0 row b ↔
    ∃ col, col < 8 ∧ spriteBit b col = true ∧ p = (spriteRow y0 row, spriteCol x0 col) := by
  simp only [rowPixels, List.mem_map, List.mem_filter, List.mem_range, and_assoc, eq_comm (a := p)]

theorem mem_spritePixels {x0 y0 : Byte} {row : Nat} {bs : List Byte} {p : Pixel} : p ∈ spritePixels x0 y0 row bs ↔
    ∃ j b, bs[j]? = some b ∧ p ∈ rowPixels x0 y0 (row + j) b := by
  induction bs generalizing row with
  | nil => simp [spritePixels]
  | cons b bs ih =>
    rw [spritePixels, List.mem_append, ih]
    constructor
    · rintro (hp | ⟨j, c, hc, hp⟩)
      · exact ⟨0, b, rfl, hp⟩
      · exact ⟨j + 1, c, hc, by rwa [Nat.add_right_comm] at hp⟩
    · rintro ⟨j, c, hc, hp⟩
      cases j with
      | zero =>
        cases hc
        exact .inl hp
      | succ j => exact .inr ⟨j, c, hc, by rwa [Nat.add_right_comm]⟩

/-! ## No pixel twice -/

/-- Eight columns from any one on are different modulo 64. -/
theorem spriteCol_inj {x0 : Byte} {a b : Nat} (ha : a < 8) (hb : b < 8) (h : spriteCol x0 a = spriteCol x0 b) : a = b := by
  have hmod : (x0.toNat + a) % 64 = (x0.toNat + b) % 64 := congrArg Fin.val h
  omega

/-- At most 32 rows from any one on are different modulo 32. -/
theorem spriteRow_inj {y0 : Byte} {a b : Nat} (ha : a < 32) (hb : b < 32) (h : spriteRow y0 a = spriteRow y0 b) : a = b := by
  have hmod : (y0.toNat + a) % 32 = (y0.toNat + b) % 32 := congrArg Fin.val h
  omega

theorem rowPixels_nodup (x0 y0 : Byte) (row : Nat) (b : Byte) : (rowPixels x0 y0 row b).Nodup := by
  refine List.Nodup.map_on (fun a ha c hc h => ?_) (List.nodup_range.filter _)
  exact spriteCol_inj (List.mem_range.1 (List.mem_of_mem_filter ha)) (List.mem_range.1 (List.mem_of_mem_filter hc))
    (congrArg Prod.snd h)

theorem spritePixels_nodup {x0 y0 : Byte} {row : Nat} {bs : List Byte} (h : row + bs.length ≤ 32) :
    (spritePixels x0 y0 row bs).Nodup := by
  induction bs generalizing row with
  | nil => exact List.nodup_nil
  | cons b bs ih =>
    rw [List.length_cons] at h
    refine (rowPixels_nodup x0 y0 row b).append (ih (by omega)) fun p hp hp' => ?_
    obtain ⟨col, -, -, hcol⟩ := mem_rowPixels.1 hp
    obtain ⟨j, c, hc, hpj⟩ := mem_spritePixels.1 hp'
    obtain ⟨col', -, -, hcol'⟩ := mem_rowPixels.1 hpj
    obtain ⟨hj, -⟩ := List.getElem?_eq_some_iff.1 hc
    have hrow : row = row + 1 + j :=
      spriteRow_inj (by omega) (by omega) (congrArg Prod.fst (hcol.symm.trans hcol'))
    omega

end Sys2Proof.Machine

namespace Sys2Proof.Claims

open Sys2Proof Sys2Proof.Machine

/-- The bit that the engine tests is the binary digit of the statement (R231). -/
theorem spriteBit_iff (b : Byte) (col : Nat) : spriteBit b col = true ↔ b.toNat / 2 ^ (7 - col) % 2 = 1 := by
  rw [spriteBit, BitVec.getLsbD, Nat.testBit_eq_decide_div_mod_eq, decide_eq_true_iff]

/-- The pixels that a draw plots are the covered cells. -/
theorem mem_spritePixels_iff_spriteCovers {x0 y0 : Byte} {rows : List Byte} {r : Fin 32} {c : Fin 64} :
    (r, c) ∈ spritePixels x0 y0 0 rows ↔ SpriteCovers x0 y0 rows r c := by
  simp only [mem_spritePixels, mem_rowPixels, spriteBit_iff, Prod.ext_iff, Fin.ext_iff, SpriteCovers, Nat.zero_add]
  constructor
  · rintro ⟨row, b, hb, col, hcol, hbit, hr, hc⟩
    exact ⟨row, col, b, hb, hcol, hbit, hr, hc⟩
  · rintro ⟨row, col, b, hb, hcol, hbit, hr, hc⟩
    exact ⟨row, b, hb, col, hcol, hbit, hr, hc⟩

variable {x0 y0 : Byte} {rows : List Byte} {fb : Framebuffer} {r : Fin 32} {c : Fin 64}

theorem drawSprite_cell_of_covers (hrows : rows.length ≤ 15) (h : SpriteCovers x0 y0 rows r c) :
    (drawSprite x0 y0 rows fb).1.cell r c = !fb.cell r c := by
  rw [drawSprite_eq_plotAll]
  exact cell_plotAll_of_mem (spritePixels_nodup (by omega)) (mem_spritePixels_iff_spriteCovers.2 h) _

theorem drawSprite_cell_of_not_covers (h : ¬ SpriteCovers x0 y0 rows r c) :
    (drawSprite x0 y0 rows fb).1.cell r c = fb.cell r c := by
  rw [drawSprite_eq_plotAll]
  exact cell_plotAll_of_not_mem (fun hmem => h (mem_spritePixels_iff_spriteCovers.1 hmem)) _

theorem drawSprite_collision (hrows : rows.length ≤ 15) : (drawSprite x0 y0 rows fb).2 = true ↔
    ∃ r c, SpriteCovers x0 y0 rows r c ∧ fb.cell r c = true := by
  rw [drawSprite_eq_plotAll, plotAll_collision (spritePixels_nodup (by omega))]
  simp only [Bool.false_eq_true, false_or, Prod.exists, mem_spritePixels_iff_spriteCovers]

/-- Settles O32: a covered cell is plotted once, any other is not. -/
theorem drawSpriteTogglesCoveredCells : Obligations.DrawSpriteTogglesCoveredCells := by
  intro x0 y0 rows fb hrows
  refine ⟨fun r c => ?_, drawSprite_collision hrows⟩
  by_cases h : SpriteCovers x0 y0 rows r c
  · simp [drawSprite_cell_of_covers hrows h, h]
  · simp [drawSprite_cell_of_not_covers h, h]

/-- Settles O33: a cell is toggled by both draws or by neither; the second collides where the first lit a cell. -/
theorem doubleDrawCancels : Obligations.DoubleDrawCancels := by
  intro x0 y0 rows fb hrows
  refine ⟨Framebuffer.ext_cell fun r c => ?_, (drawSprite_collision hrows).trans ?_⟩
  · by_cases h : SpriteCovers x0 y0 rows r c
    · rw [drawSprite_cell_of_covers hrows h, drawSprite_cell_of_covers hrows h, Bool.not_not]
    · rw [drawSprite_cell_of_not_covers h, drawSprite_cell_of_not_covers h]
  · refine exists_congr fun r => exists_congr fun c => and_congr_left fun hlit => ?_
    by_cases h : SpriteCovers x0 y0 rows r c
    · rw [drawSprite_cell_of_covers hrows h, Bool.not_eq_true'] at hlit
      exact iff_of_true h hlit
    · rw [drawSprite_cell_of_not_covers h] at hlit
      exact iff_of_false h (by simp [hlit])

/-! ## DRW -/

/-- With no row, or with all rows in bounds, DRW draws the sprite at the old coordinates (R236, D18). -/
theorem exec_drw_of_le (x y : Reg) {n : Rows} {s : State} (h : n.val = 0 ∨ s.i.toNat + n.val ≤ 4096) :
    exec (.drw x y n) s = .next ((s.setFb (drawSprite (s.reg x) (s.reg y) (spriteBytes s n.val) s.fb).1).setReg vf
      (flagByte (drawSprite (s.reg x) (s.reg y) (spriteBytes s n.val) s.fb).2)) := by
  have hread : s.mem.readRange (s.effAddr 0) n.val = .ok (spriteBytes s n.val) := by
    rcases h with h | h
    · rw [h]
      rfl
    · exact Memory.readRange_ok s.mem h
  simp only [exec, execDrw, State.withBytes, hread]

/-- Settles O34: the answer is the sprite engine's, so its statement and the frames of the two writes say the rest. -/
theorem drawTogglesAndSetsCollision : Obligations.DrawTogglesAndSetsCollision := by
  intro x y n s h
  have hrows : (spriteBytes s n.val).length ≤ 15 := by
    rw [spriteBytes, List.length_map, List.length_range]
    omega
  obtain ⟨hcells, hcollision⟩ := drawSpriteTogglesCoveredCells (s.reg x) (s.reg y) (spriteBytes s n.val) s.fb hrows
  refine ⟨_, exec_drw_of_le x y h, hcells, fun hlit => ?lit, fun hdark => ?dark, rfl, ?frame⟩
  case lit =>
    rw [State.setReg_reg_self, hcollision.2 hlit]
    rfl
  case dark =>
    rw [State.setReg_reg_self, eq_false_of_ne_true fun hc => hdark (hcollision.1 hc)]
    rfl
  case frame =>
    refine ((frame_setFb s _).trans (only_setReg _ vf _)).mono fun e he => ?_
    rcases he with (he | he) | he
    · exact .inr (.inl he)
    · exact .inr (.inr he)
    · exact .inl (List.mem_singleton.1 he)

end Sys2Proof.Claims
end

section
/-! PROOFS. The instructions one by one (spec/41_control_flow.md to spec/45_timers_keys.md), in the order of these chapters:
the word by its layout, the answer by the rule for the operation that the instruction shares with others. -/

namespace Sys2Proof.Claims

open Sys2Proof Sys2Proof.Machine

variable {s t : State} {i : Instr}

/-! ## Faults -/

/-- A fault taken after an update that changed the named elements and not PC (R300, R309). -/
theorem faults_of_frame {k : FaultKind} {changed : Elem → Prop} (hexec : exec i s = .next (t.instrFault k i))
    (hpc : t.pc = s.pc) (ht : Frame changed s t) : Faults i s k changed := by
  refine ⟨_, hexec, by rw [State.instrFault_runState, hpc], ?_⟩
  refine (ht.trans (only_setRunState t _)).mono fun e he => ?_
  exact he.symm.imp_left List.mem_singleton.1

/-- A fault that comes before any write. -/
theorem faults_of_instrFault {k : FaultKind} (hexec : exec i s = .next (s.instrFault k i)) : Faults i s k nothing :=
  faults_of_frame hexec rfl fun e _ => by cases e <;> exact rfl

/-! ## Control flow -/

theorem only_push (s : State) (j : Fin 16) (w a : Word) (n : Fin 17) :
    Only [.slot j, .sp, .pc] s { s with stack := s.stack.set j w, sp := n, pc := a } := by
  intro e he
  cases e
  case slot k =>
    have hkj : ¬ j.val = k.val := fun h => he (by simp [Fin.ext h.symm])
    exact Vector.getElem_set_ne j.isLt k.isLt hkj
  case sp | pc => exact absurd (by simp) he
  all_goals exact rfl

theorem only_pop (s : State) (a : Word) (n : Fin 17) : Only [.pc, .sp] s { s with sp := n, pc := a } := by
  intro e he
  cases e
  case sp | pc => exact absurd (by simp) he
  all_goals exact rfl

/-- A write of PC, and nothing else. -/
theorem completes_setPc (s : State) {a : Word} {target : Nat} (ha : a.toNat = target) :
    Completes (.next (s.setPc a)) fun t => t.pc.toNat = target ∧ Only [.pc] s t :=
  ⟨s.setPc a, rfl, ha, only_setPc s a⟩

/-- Settles O16, by the number of occupied slots. -/
theorem returnPopsOrUnderflows : Obligations.ReturnPopsOrUnderflows := fun s =>
  ⟨fun _ hj => ⟨_, exec_ret_of_pos hj, rfl, rfl, only_pop s _ _⟩,
    fun hempty => faults_of_instrFault (exec_ret_of_empty hempty)⟩

/-- Settles O17, by the rule for a write of PC alone. -/
theorem jumpTakesTheTargetAsItIs : Obligations.JumpTakesTheTargetAsItIs := fun nnn s =>
  ⟨packNnn_toNat 0x1 nnn, completes_setPc s (addrOperand_toNat nnn)⟩

/-- Settles O18, by the number of occupied slots. -/
theorem callPushesOrOverflows : Obligations.CallPushesOrOverflows := fun nnn s =>
  ⟨fun j hj => ⟨_, exec_call_of_lt nnn hj, Vector.getElem_set_self .., rfl, addrOperand_toNat nnn, only_push s j _ _ _⟩,
    fun hfull => faults_of_instrFault (exec_call_of_full nnn hfull)⟩

/-- Settles O19: the call pushes its return address on slot SP, which the callee keeps and the return pops. -/
theorem callThenReturnComesBack : Obligations.CallThenReturnComesBack := by
  intro nnn s hlt
  have hj : s.sp.val = (⟨s.sp.val, hlt⟩ : Fin 16).val := rfl
  generalize (⟨s.sp.val, hlt⟩ : Fin 16) = j at hj
  refine ⟨_, exec_call_of_lt nnn hj, fun u hsp hslots => ?_⟩
  have hpushed : u.stack[j] = s.pc := (hslots j (Nat.lt_succ_self _)).trans (Vector.getElem_set_self ..)
  exact ⟨_, exec_ret_of_pos (congrArg Fin.val hsp), hpushed, Fin.ext hj.symm, only_pop u _ _⟩

/-- Settles O21, by the rule for a skip with each instruction's test. -/
theorem skipsOnRegisters : Obligations.SkipsOnRegisters := fun x y s =>
  ⟨⟨packXyn_toNat 0x5 x y 0x0, completes_skipIf s (byte_beq_iff_toNat _ _)⟩,
    ⟨packXyn_toNat 0x9 x y 0x0, completes_skipIf s (byte_bne_iff_toNat _ _)⟩⟩

/-- Settles O22: the natural sum stays below 65536. -/
theorem jumpV0IsNotWrapped : Obligations.JumpV0IsNotWrapped := fun nnn s =>
  ⟨packNnn_toNat 0xB nnn, completes_setPc s (jumpV0Target_toNat s nnn)⟩

/-! ## Logic and random -/

/-- Settles O10: each of the three is the operation on bit vectors, read bit by bit. -/
theorem logicIsBitwiseAndSetsNoFlag : Obligations.LogicIsBitwiseAndSetsNoFlag := fun x y s =>
  ⟨⟨packXyn_eight_toNat x y 0x1,
      completes_setReg s x (fun b => ∀ k, b.getLsbD k = ((s.reg x).getLsbD k || (s.reg y).getLsbD k))
        fun _ => BitVec.getLsbD_or⟩,
    ⟨packXyn_eight_toNat x y 0x2,
      completes_setReg s x (fun b => ∀ k, b.getLsbD k = ((s.reg x).getLsbD k && (s.reg y).getLsbD k))
        fun _ => BitVec.getLsbD_and⟩,
    ⟨packXyn_eight_toNat x y 0x3,
      completes_setReg s x (fun b => ∀ k, b.getLsbD k = ((s.reg x).getLsbD k ^^ (s.reg y).getLsbD k))
        fun _ => BitVec.getLsbD_xor⟩⟩

theorem only_nextDraw (s : State) : Only [.draws] s s.nextDraw := by
  intro e he
  cases e
  case draws => exact absurd (List.mem_singleton_self _) he
  all_goals exact rfl

/-- Settles O15: the register takes the draw under the mask, and the count of draws moves on. -/
theorem randomIsMaskedFreshDraw : Obligations.RandomIsMaskedFreshDraw := by
  intro x kk s
  refine ⟨packXkk_toNat 0xC x kk, (s.setReg x (Config.randomByte s.draws &&& kk)).nextDraw, rfl,
    ⟨Config.randomByte s.draws, rfl, fun b => ?_⟩, rfl, (only_setReg s x _).trans (only_nextDraw _)⟩
  rw [State.nextDraw_reg, State.setReg_reg_self, BitVec.getLsbD_and]

/-! ## The index register -/

/-- Settles O24: the sum of words is the sum of their numbers modulo 65536. -/
theorem addIndexWrapsWithoutFlag : Obligations.AddIndexWrapsWithoutFlag := by
  intro x s
  refine ⟨packXkk_fifteen_toNat x 0x1E, completes_setI s ?_⟩
  rw [BitVec.toNat_add, BitVec.toNat_setWidth_of_le (by decide)]

/-- Settles O25: five times a byte stays below 65536. -/
theorem glyphAddressIsFiveTimesVx : Obligations.GlyphAddressIsFiveTimesVx := by
  intro x s
  refine ⟨packXkk_fifteen_toNat x 0x29, completes_setI s ?_⟩
  have hx : (s.reg x).toNat < 256 := (s.reg x).isLt
  rw [glyphAddr, BitVec.toNat_ofNat]
  exact Nat.mod_eq_of_lt (by simp only [Config.glyphHeight]; omega)

/-! ## Stores -/

/-- A store in bounds: its bytes from I on, and nothing else (R63, R206). -/
theorem completes_storeBytes {bs : List Byte} (hexec : exec i s = .next (s.storeBytes i bs))
    (h : s.i.toNat + bs.length ≤ 4096) : Completes (exec i s) fun t =>
      (∀ j b, bs[j]? = some b → t.mem.read (s.effAddr j) = b) ∧ Frame (bytesAt (s.effAddr 0) bs.length) s t := by
  refine ⟨_, hexec.trans (congrArg _ (State.storeBytes_ok s i h)), fun j b hb => ?_, frame_writeAll s _ bs⟩
  rw [State.effAddr_eq]
  exact Memory.read_writeAll_of_getElem? hb

theorem frame_forget (s : State) (d a n : Nat) : Frame (bytesAt a n) s (s.setMem (s.mem.forget d a n)) := by
  intro e he
  cases e
  case mem b =>
    refine Memory.read_forget_outside s.mem ?_
    by_contra hb
    exact he ⟨b, by omega, by omega, rfl⟩
  all_goals exact rfl

/-- A store out of bounds: the bytes below 4096 are forgotten, one draw is counted, and the fault is taken (R306, R309). -/
theorem faults_storeBytes {bs : List Byte} (hexec : exec i s = .next (s.storeBytes i bs)) (hpos : 0 < bs.length)
    (h : 4096 < s.i.toNat + bs.length) : Faults i s (.writeOutOfBounds (max s.i.toNat 4096))
      fun e => e = .draws ∨ bytesAt s.i.toNat (4096 - s.i.toNat) e := by
  have hn : 4096 - s.i.toNat = max s.i.toNat 4096 - s.i.toNat := by omega
  refine faults_of_frame (hexec.trans (congrArg _ (State.storeBytes_fault s i hpos h))) rfl ?_
  refine ((frame_forget s s.draws _ _).trans (only_nextDraw _)).mono fun e he => ?_
  rw [hn]
  exact he.symm.imp_left List.mem_singleton.1

/-- Settles O26: the store of three bytes, each the digit of the statement. -/
theorem bcdStoresThreeDigits : Obligations.BcdStoresThreeDigits := by
  intro x s h
  have hx : (s.reg x).toNat < 256 := (s.reg x).isLt
  obtain ⟨t, hexec, hread, hframe⟩ := completes_storeBytes (i := .ldB x) (s := s) (bs := bcdDigits (s.reg x)) rfl
    (by rw [bcdDigits_length]; omega)
  refine ⟨t, hexec, ?_, ?_, ?_, hframe⟩
  · rw [hread 0 _ rfl, BitVec.toNat_ofNat]
    omega
  · rw [hread 1 _ rfl, BitVec.toNat_ofNat]
    omega
  · rw [hread 2 _ rfl, BitVec.toNat_ofNat]
    omega

/-- Settles O27: the store of the register range. -/
theorem storeRegistersWritesTheRange : Obligations.StoreRegistersWritesTheRange := by
  intro x s h
  obtain ⟨t, hexec, hread, hframe⟩ := completes_storeBytes (i := .storeRegs x) (s := s) (bs := s.regRange x) rfl
    (by rw [State.regRange_length]; omega)
  rw [State.regRange_length] at hframe
  exact ⟨t, hexec, fun j hj => hread j.val _ (State.regRange_getElem? s x j hj), hframe⟩

/-- Settles O29, by the rule for a store out of bounds. -/
theorem storesOutOfBoundsFault : Obligations.StoresOutOfBoundsFault := fun x s =>
  ⟨fun h => faults_storeBytes (bs := bcdDigits (s.reg x)) rfl (by simp) (by rw [bcdDigits_length]; omega),
    fun h => faults_storeBytes (bs := s.regRange x) rfl (by simp) (by rw [State.regRange_length]; omega)⟩

/-! ## Loads -/

theorem exec_loadRegs (x : Reg) (s : State) :
    exec (.loadRegs x) s = .next (s.loadBytes (.loadRegs x) (x.val + 1)) := rfl

/-- A load of bytes to V0, V1, ... changes the registers of these bytes and nothing else (R205). -/
theorem frame_loadRegs (s : State) (bs : List Byte) :
    Frame (fun e => ∃ j : Reg, j.val < bs.length ∧ e = .reg j) s (s.loadRegs bs) := by
  intro e he
  cases e
  case reg y =>
    have hy : bs.length ≤ y.val := by
      by_contra hlt
      exact he ⟨y, by omega, rfl⟩
    show (s.loadRegs bs).reg y = s.reg y
    rw [State.loadRegs_reg, List.getElem?_eq_none hy, Option.getD_none]
  all_goals exact rfl

/-- Settles O28: the load in bounds. -/
theorem loadRegistersReadsTheRange : Obligations.LoadRegistersReadsTheRange := by
  intro x s h
  have hbounds : s.effAddr 0 + (x.val + 1) ≤ 4096 := h
  refine ⟨_, (exec_loadRegs x s).trans (congrArg _ (State.loadBytes_ok s _ hbounds)), fun j hj => ?_,
    (frame_loadRegs s _).mono fun e he => ?_⟩
  · rw [State.loadRegs_reg, List.getElem?_map, List.getElem?_range (by omega), State.effAddr_eq]
    rfl
  · obtain ⟨j, hj, rfl⟩ := he
    rw [List.length_map, List.length_range] at hj
    exact ⟨j, by omega, rfl⟩

/-- Settles O30: the load forgets the registers of the bytes below 4096, and DRW has read before it writes. -/
theorem readsOutOfBoundsFault : Obligations.ReadsOutOfBoundsFault := by
  refine fun x y n s => ⟨fun h => ?load, fun hpos h => ?draw⟩
  case load =>
    have hbounds : 4096 < s.effAddr 0 + (x.val + 1) := by rw [State.effAddr]; omega
    have hfault := State.loadBytes_fault s (.loadRegs x) (by omega) hbounds
    refine faults_of_frame ((exec_loadRegs x s).trans (congrArg _ hfault)) rfl ?_
    refine ((frame_loadRegs s _).trans (only_nextDraw _)).mono fun e he => ?_
    rcases he with ⟨j, hj, rfl⟩ | he
    · rw [List.length_map, List.length_range, State.effAddr] at hj
      exact .inr ⟨j, by omega, rfl⟩
    · exact .inl (List.mem_singleton.1 he)
  case draw => exact faults_of_instrFault (congrArg Host.Outcome.next (State.withBytes_fault s _ _ hpos h))

/-! ## Keys and timers -/

/-- An instruction that names a key by Vx and goes on with the key (R260, R261, R307). -/
theorem withKey_eq {x : Reg} {k : Reg} (h : (s.reg x).toNat = k.val) (f : Reg → State) :
    s.withKey i (s.reg x) f = f k := by
  rw [State.withKey_ok s i f (by omega)]
  exact congrArg f (Fin.ext h)

/-- Settles O35: in range the rule for a skip on the key, above it the fault. -/
theorem keySkipsOrFault : Obligations.KeySkipsOrFault := by
  intro x s
  have hskp : exec (.skp x) s = .next (s.withKey (.skp x) (s.reg x) fun k => s.skipIf (s.keyDown k)) := rfl
  have hsknp : exec (.sknp x) s = .next (s.withKey (.sknp x) (s.reg x) fun k => s.skipIf (!s.keyDown k)) := rfl
  refine ⟨fun k hk => ⟨?_, ?_⟩, fun h => ⟨?_, ?_⟩⟩
  · rw [hskp, withKey_eq hk]
    exact completes_skipIf s Iff.rfl
  · rw [hsknp, withKey_eq hk]
    exact completes_skipIf s (by rw [Bool.not_eq_true'])
  · exact faults_of_instrFault (hskp.trans (congrArg _ (State.withKey_fault s _ _ h)))
  · exact faults_of_instrFault (hsknp.trans (congrArg _ (State.withKey_fault s _ _ h)))

theorem only_setDt (s : State) (b : Byte) : Only [.dt] s (s.setDt b) := by
  intro e he
  cases e
  case dt => exact absurd (List.mem_singleton_self _) he
  all_goals exact rfl

theorem only_setSt (s : State) (b : Byte) : Only [.st] s (s.setSt b) := by
  intro e he
  cases e
  case st => exact absurd (List.mem_singleton_self _) he
  all_goals exact rfl

/-- Settles O36, by the frame of the one write of each. -/
theorem timerTransfers : Obligations.TimerTransfers := fun x s =>
  ⟨⟨packXkk_fifteen_toNat x 0x07, completes_setReg s x (· = s.dt) rfl⟩,
    ⟨packXkk_fifteen_toNat x 0x15, s.setDt (s.reg x), rfl, rfl, only_setDt s _⟩,
    ⟨packXkk_fifteen_toNat x 0x18, s.setSt (s.reg x), rfl, rfl, only_setSt s _⟩⟩

/-- Natural subtraction has the floor 0 that the statement writes out. -/
theorem countDown_toNat_floor (b : Byte) : (countDown b).toNat = if b.toNat > 0 then b.toNat - 1 else 0 := by
  rw [countDown_toNat]
  split <;> omega

/-- Settles O38: both timers count down with floor 0, and the flag compares what is left of ST with 0. -/
theorem timerTickCountsDown : Obligations.TimerTickCountsDown := by
  intro s
  refine ⟨countDown_toNat_floor s.dt, countDown_toNat_floor s.st, decide_eq_true_iff, fun e he => ?_⟩
  cases e
  case dt | st | soundActive => exact absurd (by simp) he
  all_goals exact rfl

end Sys2Proof.Claims
end
